-- ==== Sys2Proof/Word.lean ====
section
/-! DEFINITION. The widths of OD-SEQ's words (00_scope R8, R9: every value is an unsigned integer of a stated width). -/

namespace Sys2Proof

/-- One byte of host memory or of the I2C bus. -/
abbrev Byte := BitVec 8

/-- A 32-bit register word, host address or count. -/
abbrev Word := BitVec 32

/-- The 64-bit command descriptor `DESC64` (30_encoding R90). -/
abbrev Desc := BitVec 64

/-- A 7-bit I2C device address (00_scope R7, `ADDR_BITS`). -/
abbrev Addr7 := BitVec 7

/-- A 4-bit status code (10_state R24). -/
abbrev Code := BitVec 4

end Sys2Proof
end

