-- ==== Sys2Proof/Config.lean ====
section
/-! DEFINITION. What an implementation of OD-SEQ fixes (00_scope R7), the environment's choices (00_scope R6, R13), and the free values. -/

namespace Sys2Proof

/-- The operating mode (00_scope R5): `bounded` I2C waits fail after `POLL_LIMIT` polls, `baseline` waits spin. -/
inductive Mode where
  | bounded
  | baseline
  deriving DecidableEq, Repr, Inhabited

/-- A range of `size` consecutive host bytes from `base`, wrapping at 2^32: one allocated buffer (20_memory R69). -/
structure Region where
  base : Word
  size : Nat
  deriving DecidableEq, Repr, Inhabited

/-- The implementation parameters a model takes as an argument (00_scope R7): they stand in State, and no step changes
them, so that a claim over all states is a claim over all their values. DESIGN CHOICE, safe, log 4. -/
structure Config where
  /-- `MODE` (00_scope R5). -/
  mode : Mode
  /-- `POLL_LIMIT`, OPEN, at least 1. -/
  pollLimit : Nat
  /-- `CLK_W`, OPEN, in 1..32. -/
  clkW : Nat
  /-- `SETTLE_MS`, the source's 1000 unless a caller overrides it (42_ranger R188). -/
  settleMs : Word
  /-- `HMEM_ADMIT`, OPEN: the bytes of the caller's buffers as a list of ranges. DESIGN CHOICE, safe, log 21. -/
  hmem : List Region
  /-- `I2C_BASE`, OPEN; no rule reads it (20_memory R64). Its width of 32 bits is a DESIGN CHOICE, safe, log 4. -/
  i2cBase : Word
  deriving DecidableEq, Repr

/-- `CAL`, ticks per centimetre (00_scope R7, 42_ranger R184). -/
def Config.cal : Word := 58

/-- `TRIG_US`, the trigger half-pulse in ticks (00_scope R7, 42_ranger R182). -/
def Config.trigUs : Word := 10

/-- The default of `SETTLE_MS` (00_scope R7). -/
def Config.settleDefault : Word := 1000

/-- `NBYTES_MAX`, the largest byte count the `COUNT` field holds (00_scope R7). -/
def Config.nbytesMax : Nat := 255

/-- One draw (00_scope R13): what the environment supplies at one SEQ step that reads it. `word` is the value of a
`PRead`, or the start value of `CNT` at `INIT_CLOCK`; `bit` is the echo level, or `UIF` at `INIT_CLOCK`. -/
structure Draw where
  word : Word
  bit : Bool
  deriving DecidableEq, Repr, Inhabited

/-- One choice of the agent that moves next (00_scope R6), with HOST's data (60_exceptions R224, R226). -/
inductive Move where
  /-- SEQ takes its step. -/
  | seq
  /-- CLK takes its tick step (60_exceptions R220). -/
  | tick
  /-- MST takes its expiry step (60_exceptions R221). -/
  | msExpire
  /-- HOST issues descriptor `d` (60_exceptions R224). -/
  | hostIssue (d : Desc)
  /-- HOST reads host register number `r` (10_state R23). -/
  | hostRead (r : Nat)
  /-- HOST writes `v` to host register number `r` (refused, 10_state R23). -/
  | hostWrite (r : Nat) (v : Word)
  /-- HOST reads the command port (refused, 10_state R28). -/
  | hostReadCmd
  /-- HOST writes byte `v` of host memory at `a` (60_exceptions R224). -/
  | hostStore (a : Word) (v : Byte)
  deriving DecidableEq, Repr, Inhabited

/-- The free value of the n-th draw that no pending draw supplies: nothing constrains it (00_scope R13, 20_memory R66).
DESIGN CHOICE, safe, log 2. -/
opaque Config.freeDraw : Nat → Draw

/-- The free choice of the n-th move that no pending move gives: any interleaving (00_scope R10, 60_exceptions R222).
DESIGN CHOICE, safe, log 1. -/
opaque Config.freeMove : Nat → Move

/-- The byte the reference slave returns when the `SLAVE_BYTES` of a reference run are used up: the spec states none
(20_memory R76, R79). DESIGN CHOICE, safe, log 19. -/
opaque Config.freeSlaveByte : Nat → Byte

/-- The OPEN parameters of this hardware (00_scope R7). DESIGN CHOICE, safe, log 4: `POLL_LIMIT` is this plus 1. -/
opaque Config.pollLimitLessOne : Nat

/-- `CLK_W` of this hardware is this plus 1. DESIGN CHOICE, safe, log 4. -/
opaque Config.clkWidthLessOne : Fin 32

/-- `HMEM_ADMIT` of this hardware. DESIGN CHOICE, safe, logs 4 and 21. -/
opaque Config.hmemRegions : List Region

/-- `I2C_BASE` of this hardware. DESIGN CHOICE, safe, log 4. -/
opaque Config.i2cBaseFree : Word

/-- `CNT` after system reset, cut to `CLK_W` bits: a draw (70_reset R242). DESIGN CHOICE, safe, log 7. -/
opaque Config.resetCnt : Word

/-- `UIF` after system reset: a draw (70_reset R242). DESIGN CHOICE, safe, log 7. -/
opaque Config.resetUif : Bool

/-- `MS_DONE` after system reset: a draw (70_reset R242). DESIGN CHOICE, safe, log 7. -/
opaque Config.resetMsDone : Bool

/-- `TRIG` after system reset: any level (70_reset R242). DESIGN CHOICE, safe, log 7. -/
opaque Config.resetTrig : Bool

/-- The parameters of this hardware (00_scope R7): `MODE` is `BOUNDED`, `SETTLE_MS` 1000, the OPEN ones free. -/
def Config.hardware : Config where
  mode := .bounded
  pollLimit := Config.pollLimitLessOne + 1
  clkW := Config.clkWidthLessOne.val + 1
  settleMs := Config.settleDefault
  hmem := Config.hmemRegions
  i2cBase := Config.i2cBaseFree

end Sys2Proof
end

