-- ==== Sys2Proof/Machine/State.lean ====
section
/-! DEFINITION. The state of OD-SEQ as plain data (10_state R20 to R48), the stops of a step, and the reset state. -/

namespace Sys2Proof.Machine

/-- `PHASE` (10_state R21): the program counter of the block. -/
inductive Phase where
  | idle | decode
  | ckInit | ckNow
  | duEntry | duWait | duClear
  | dmArm | dmWait
  | i2IdlePoll | i2Start | i2TxPoll | i2TxFetch | i2TxWrite | i2TcPoll | i2Stop | i2StopfPoll | i2StopfClear
  | i2Restart | i2RxPoll | i2RxRead | i2RxStore
  | i2AbStop | i2AbPoll | i2AbClear
  | rgTrig0 | rgTrig1 | rgTrig2 | rgASample | rgBSample | rgSettle
  deriving DecidableEq, Repr, Inhabited

/-- `RET` (10_state R21, R22): where a delay sub-procedure returns, or the mark `DONE`. -/
inductive Ret where
  | done
  | back (p : Phase)
  deriving DecidableEq, Repr, Inhabited

/-- The I2C peripheral interface registers (10_state R29 to R33). -/
inductive PReg where
  | ctrl | status | clear | txdr | rxdr
  deriving DecidableEq, Repr, Inhabited

/-- The status codes' names (60_exceptions R210). -/
inductive Status where
  | ok
  | busBusyTimeout
  | noAck
  | transferIncompleteTimeout
  | echoRiseTimeout
  | echoFallTimeout
  | illegalCommand
  deriving DecidableEq, Repr, Inhabited

/-- A model fault with what is recorded with it (60_exceptions R212). It is a recorded fault of the spec: a next state. -/
inductive ModelFault where
  /-- `REENTRANT`: HOST issued descriptor `d` while busy. -/
  | reentrant (d : Desc)
  /-- `CLOCK_REINIT`: `INIT_CLOCK` while `RUN = 1`. -/
  | clockReinit
  /-- `UNWRITTEN_READ`: HOST read result register `r`, which holds no value. -/
  | unwrittenRead (r : Nat)
  deriving DecidableEq, Repr, Inhabited

/-- `FAULTS` (10_state R40): the set of recorded kinds, each with what is recorded with it. Log 11. -/
structure Faults where
  reentrant : Option Desc
  clockReinit : Bool
  unwrittenRead : Option Nat
  deriving DecidableEq, Repr

/-- An event of `HIST` (10_state R41). -/
inductive Event where
  | issue (d : Desc)
  | pRd (r : PReg) (v : Word)
  | pWr (r : PReg) (v : Word)
  | pStop
  | mRd (a : Word) (v : Byte)
  | mWr (a : Word) (v : Byte)
  | clkRd (v : Word)
  | uifRd
  | uifClr
  | msArm
  | msDoneRd
  | trigWr (l : Bool)
  | echoRd (l : Bool)
  | tick
  | msExpire
  | clkInit
  | complete (s : Code)
  | fault (f : ModelFault)
  deriving DecidableEq, Repr, Inhabited

/-- Host memory (20_memory R61): the bytes that differ from what an unlisted address reads as, by rising address. -/
abbrev Memory := List Host.Cell

/-- The registers an issue latches (10_state R22, 30_encoding R91): `C_DESC`, `C_OP`, `C_ADDR`, `C_DATA`, `C_COUNT`, `C_ARG`. -/
structure Cmd where
  desc : Desc
  op : BitVec 4
  addr : Addr7
  data : Byte
  count : Byte
  arg : Word
  deriving DecidableEq, Repr

/-- The working registers of SEQ that commands write (10_state R22). -/
structure Work where
  /-- `IDX` -/
  idx : BitVec 9
  /-- `POLLS` -/
  polls : Nat
  /-- `ERR` -/
  err : Code
  /-- `BYTE` -/
  byte : Byte
  /-- `ECNT` -/
  ecnt : BitVec 33
  /-- `DUR` -/
  dur : Word
  /-- `VAL` -/
  val : Bool
  /-- `EKIND` -/
  ekind : Code
  /-- `DREM` -/
  drem : Word
  /-- `MREM` -/
  mrem : Word
  /-- `RET` -/
  ret : Ret
  deriving DecidableEq, Repr

/-- The result registers (10_state R23 to R26). A `Written` mark is the spec's own "holds a value" (10_state R48). -/
structure Results where
  /-- `RES_STATUS` -/
  status : Code
  statusWritten : Bool
  /-- `RES_VALUE` -/
  value : Word
  valueWritten : Bool
  /-- `RNG_VALID` -/
  rngValid : Bool
  /-- `RNG_DURATION` -/
  rngDuration : Word
  /-- `RNG_DISTANCE` -/
  rngDistance : Word
  /-- The three measurement registers are written together (10_state R26). -/
  rngWritten : Bool
  deriving DecidableEq, Repr

/-- The peripheral interface registers (10_state R29 to R33): the words last written or last presented. Log 8. -/
structure PerRegs where
  ctrl : Word
  status : Word
  clear : Word
  txdr : Word
  rxdr : Word
  deriving DecidableEq, Repr

/-- The microsecond counter (10_state R34 to R36): `CNT` in the low `CLK_W` bits of `cnt`, `UIF`, `RUN`. -/
structure Clock where
  cnt : Word
  uif : Bool
  run : Bool
  deriving DecidableEq, Repr

/-- The millisecond timer (10_state R37): `MS_ARMED`, `MS_DONE`. -/
structure MsTimer where
  armed : Bool
  done : Bool
  deriving DecidableEq, Repr

/-- The MODEL's own state: the environment's pending choices, oldest first, and how many free ones were taken. Logs 1, 2. -/
structure Env where
  moves : List Move
  moveCount : Nat
  draws : List Draw
  drawCount : Nat
  deriving DecidableEq, Repr

/-- The whole state (10_state R20). -/
structure State where
  /-- The parameters of 00_scope R7; no step changes them. -/
  cfg : Config
  /-- `PHASE` -/
  phase : Phase
  cmd : Cmd
  work : Work
  res : Results
  per : PerRegs
  clk : Clock
  mst : MsTimer
  /-- `TRIG` (10_state R38) -/
  trig : Bool
  /-- `FAULTS` (10_state R40) -/
  faults : Faults
  /-- `HIST` (10_state R41), oldest first -/
  hist : List Event
  /-- `HMEM` (20_memory R61) -/
  mem : Memory
  /-- The value the last HOST register read returned (60_exceptions R226). Log 13. -/
  hostData : Word
  env : Env
  deriving DecidableEq, Repr

/-- A stop of a step. -/
inductive Fault where
  /-- SEQ is stuck: the byte at `a` that the command reads or writes is not in `HMEM_ADMIT`, so SEQ has no step, for good
  (20_memory R69, 60_exceptions R213). Raised by the meanings of I2C_WRITE_BYTES and I2C_READ_BYTES. Safe, log 10. -/
  | hmemNotAdmitted (a : Word)
  /-- `PHASE` is no point of the command in progress, which no run reaches and no rule describes (10_state R21). Raised by
  every meaning and by SEQ's step. Safe, log 15. -/
  | strayPhase (p : Phase)
  deriving DecidableEq, Repr

/-- A move of HOST that the spec refuses, or an instruction without a meaning. -/
inductive Refusal where
  /-- An instruction that exec does not model yet. Raised by exec only. Safe. -/
  | notModelled (mnemonic : String)
  /-- HOST read or wrote a host register number of 6 or above (10_state R23). Raised by HOST's step. Safe, log 14. -/
  | hostNoSuchRegister (r : Nat)
  /-- HOST wrote one of the read-only host registers 0..5 (10_state R23). Raised by HOST's step. Safe, log 14. -/
  | hostRegisterReadOnly (r : Nat)
  /-- HOST read the write-only command port (10_state R28). Raised by HOST's step. Safe, log 14. -/
  | hostCommandPortWriteOnly
  /-- HOST wrote host memory at `a` while `SEQ_BUSY = 1`, a move it does not have (60_exceptions R224). Raised by HOST's
  step. Safe, log 14. -/
  | hostStoreWhileBusy (a : Word)
  deriving DecidableEq, Repr

/-- The outcome of one step of this machine. -/
abbrev Result := Host.Outcome State Fault Refusal

/-- The machine right after system reset (10_state R47, 70_reset R240). -/
def State.reset : State where
  cfg := Config.hardware
  phase := .idle
  cmd := { desc := 0, op := 0, addr := 0, data := 0, count := 0, arg := 0 }
  work := { idx := 0, polls := 0, err := 0, byte := 0, ecnt := 0, dur := 0, val := false, ekind := 0, drem := 0, mrem := 0,
            ret := .done }
  res := { status := 0, statusWritten := false, value := 0, valueWritten := false, rngValid := false, rngDuration := 0,
           rngDistance := 0, rngWritten := false }
  per := { ctrl := 0, status := 0, clear := 0, txdr := 0, rxdr := 0 }
  clk := { cnt := BitVec.ofNat 32 (Config.resetCnt.toNat % 2 ^ Config.hardware.clkW), uif := Config.resetUif, run := false }
  mst := { armed := false, done := Config.resetMsDone }
  trig := Config.resetTrig
  faults := { reentrant := none, clockReinit := false, unwrittenRead := none }
  hist := []
  mem := []
  hostData := 0
  env := { moves := [], moveCount := 0, draws := [], drawCount := 0 }

end Sys2Proof.Machine
end

