-- ==== Sys2Proof/Machine/Flags.lean ====
section
/-! DEFINITION. The status flags PER presents (10_state R30), the five waits on them (41_i2c R140) and the status codes
(60_exceptions R210). OD-SEQ has no arithmetic condition codes (10_state R42). -/

namespace Sys2Proof.Machine

/-- The 4-bit code of a status (60_exceptions R210). -/
def Status.code : Status → Code
  | .ok => 0
  | .busBusyTimeout => 1
  | .noAck => 2
  | .transferIncompleteTimeout => 3
  | .echoRiseTimeout => 4
  | .echoFallTimeout => 5
  | .illegalCommand => 6

/-- A code `RES_STATUS` may hold: 7..15 are never written (10_state R24). -/
def Code.legal (c : Code) : Bool := c.toNat ≤ 6

/-- `STATUS.BUSY`, bit 0. -/
def StatusWord.busy (v : Word) : Bool := v.getLsbD 0

/-- `STATUS.TXRDY`, bit 1. -/
def StatusWord.txrdy (v : Word) : Bool := v.getLsbD 1

/-- `STATUS.RXRDY`, bit 2. -/
def StatusWord.rxrdy (v : Word) : Bool := v.getLsbD 2

/-- `STATUS.TC`, bit 3. -/
def StatusWord.tc (v : Word) : Bool := v.getLsbD 3

/-- `STATUS.STOPF`, bit 4. -/
def StatusWord.stopf (v : Word) : Bool := v.getLsbD 4

/-- The five wait steps (41_i2c R140). -/
inductive Wait where
  | idle
  | tx
  | rx
  | tc
  | stopf
  deriving DecidableEq, Repr

/-- The poll phase of a wait (41_i2c R140). -/
def Wait.phase : Wait → Phase
  | .idle => .i2IdlePoll
  | .tx => .i2TxPoll
  | .rx => .i2RxPoll
  | .tc => .i2TcPoll
  | .stopf => .i2StopfPoll

/-- `cond(s)` of a wait; the other bits of the status word are ignored (41_i2c R140). -/
def Wait.holds (w : Wait) (v : Word) : Bool :=
  match w with
  | .idle => !StatusWord.busy v
  | .tx => StatusWord.txrdy v
  | .rx => StatusWord.rxrdy v
  | .tc => StatusWord.tc v
  | .stopf => StatusWord.stopf v

/-- `err` of a wait (41_i2c R140). -/
def Wait.err : Wait → Status
  | .idle => .busBusyTimeout
  | .tx => .noAck
  | .rx => .noAck
  | .tc => .transferIncompleteTimeout
  | .stopf => .transferIncompleteTimeout

/-- Does the wait's failure abort (a START was issued) or complete at once (41_i2c R140)? -/
def Wait.aborts : Wait → Bool
  | .idle => false
  | .tx => true
  | .rx => true
  | .tc => true
  | .stopf => true

/-- The phases that poll `STATUS`: entering one from another phase clears `POLLS` (41_i2c R140, R142). -/
def Phase.isPoll : Phase → Bool
  | .i2IdlePoll => true
  | .i2TxPoll => true
  | .i2RxPoll => true
  | .i2TcPoll => true
  | .i2StopfPoll => true
  | .i2AbPoll => true
  | _ => false

end Sys2Proof.Machine
end

