-- ==== Sys2Proof/Syntax.lean ====
section
/-! DEFINITION. OD-SEQ's commands (30_encoding R92), and their textual form as an assembler reads it (30_encoding R102). -/

namespace Sys2Proof

/-- The eight commands, one constructor per row of spec/opcode_table.json, with the operands of 30_encoding R92. -/
inductive Instr where
  /-- `INIT_CLOCK` (40_clock R121). -/
  | initClock
  /-- `CLOCK_NOW` (40_clock R122). -/
  | clockNow
  /-- `DELAY_US n` (40_clock R124). -/
  | delayUs (n : Word)
  /-- `DELAY_MS n` (40_clock R126). -/
  | delayMs (n : Word)
  /-- `I2C_WRITE_BYTE addr, byte` (41_i2c R145). -/
  | i2cWriteByte (addr : Addr7) (data : Byte)
  /-- `I2C_WRITE_BYTES addr, count, buf` (41_i2c R147). -/
  | i2cWriteBytes (addr : Addr7) (count : Byte) (buf : Word)
  /-- `I2C_READ_BYTES addr, reg, count, buf` (41_i2c R150). -/
  | i2cReadBytes (addr : Addr7) (reg : Byte) (count : Byte) (buf : Word)
  /-- `MEASURE timeout` (42_ranger R181). -/
  | measure (timeout : Word)
  deriving DecidableEq, Repr, Inhabited

/-- One line of assembler text (30_encoding R102), its numbers as written: they may be out of range, and then the
assembler refuses the line. -/
inductive AsmLine where
  | initClock
  | clockNow
  | delayUs (n : Nat)
  | delayMs (n : Nat)
  | i2cWriteByte (addr byte : Nat)
  | i2cWriteBytes (addr count buf : Nat)
  | i2cReadBytes (addr reg count buf : Nat)
  | measure (timeout : Nat)
  deriving DecidableEq, Repr, Inhabited

end Sys2Proof
end

