-- ==== Sys2Proof/WellFormed.lean ====
section
/-! DEFINITION. Well-formedness: the ranges of an assembler line (30_encoding R102) and of the parameters (00_scope R7).
A term of Instr carries its operands at their field widths, so every one of them is well formed. -/

namespace Sys2Proof

/-- "`addr > 127`" is refused (30_encoding R102; 00_scope R7 `ADDR_BITS`). -/
def AsmLine.addrOk (addr : Nat) : Bool := addr ≤ 127

/-- "`byte`, `reg` or `count > 255`" is refused (30_encoding R102; 00_scope R7 `NBYTES_MAX`). -/
def AsmLine.byteOk (v : Nat) : Bool := v ≤ Config.nbytesMax

/-- "`n`, `buf`, `timeout > 0xFFFFFFFF`" is refused (30_encoding R102). -/
def AsmLine.argOk (v : Nat) : Bool := v ≤ 0xFFFFFFFF

/-- The line's numbers fit their fields (30_encoding R102). -/
def AsmLine.wellFormed : AsmLine → Bool
  | .initClock => true
  | .clockNow => true
  | .delayUs n => AsmLine.argOk n
  | .delayMs n => AsmLine.argOk n
  | .i2cWriteByte addr byte => AsmLine.addrOk addr && AsmLine.byteOk byte
  | .i2cWriteBytes addr count buf => AsmLine.addrOk addr && AsmLine.byteOk count && AsmLine.argOk buf
  | .i2cReadBytes addr reg count buf =>
      AsmLine.addrOk addr && AsmLine.byteOk reg && AsmLine.byteOk count && AsmLine.argOk buf
  | .measure timeout => AsmLine.argOk timeout

/-- The parameters' ranges (00_scope R7): `POLL_LIMIT` at least 1, `CLK_W` in 1..32. -/
def Config.wellFormed (c : Config) : Bool := 1 ≤ c.pollLimit && 1 ≤ c.clkW && c.clkW ≤ 32

end Sys2Proof
end

