-- ==== Sys2Proof/Decode.lean ====
section
/-! DEFINITION. The 64-bit descriptor (30_encoding R90 to R96): fields, match and mask, decoder, encoder. -/

namespace Sys2Proof

/-- `OP`, bits 3:0 (30_encoding R90). -/
def Desc.op (d : Desc) : BitVec 4 := d.extractLsb' 0 4

/-- `ADDR`, bits 10:4. -/
def Desc.addr (d : Desc) : Addr7 := d.extractLsb' 4 7

/-- `RSV_A`, bit 11. -/
def Desc.rsvA (d : Desc) : BitVec 1 := d.extractLsb' 11 1

/-- `DATA`, bits 19:12. -/
def Desc.data (d : Desc) : Byte := d.extractLsb' 12 8

/-- `COUNT`, bits 27:20. -/
def Desc.count (d : Desc) : Byte := d.extractLsb' 20 8

/-- `RSV_B`, bits 31:28. -/
def Desc.rsvB (d : Desc) : BitVec 4 := d.extractLsb' 28 4

/-- `ARG`, bits 63:32. -/
def Desc.arg (d : Desc) : Word := d.extractLsb' 32 32

/-- The eight mnemonics (30_encoding R92). -/
inductive Mnemonic where
  | initClock
  | clockNow
  | delayUs
  | delayMs
  | i2cWriteByte
  | i2cWriteBytes
  | i2cReadBytes
  | measure
  deriving DecidableEq, Repr

/-- The rows of the match and mask table, in its order (30_encoding R93). -/
def Mnemonic.all : List Mnemonic :=
  [.initClock, .clockNow, .delayUs, .delayMs, .i2cWriteByte, .i2cWriteBytes, .i2cReadBytes, .measure]

/-- The `OP` of a mnemonic (30_encoding R92). -/
def Mnemonic.opcode : Mnemonic → BitVec 4
  | .initClock => 0x1
  | .clockNow => 0x2
  | .delayUs => 0x3
  | .delayMs => 0x4
  | .i2cWriteByte => 0x5
  | .i2cWriteBytes => 0x6
  | .i2cReadBytes => 0x7
  | .measure => 0x8

/-- `MATCH(m)` (30_encoding R93). -/
def Mnemonic.matchWord : Mnemonic → Desc
  | .initClock => 0x0000000000000001
  | .clockNow => 0x0000000000000002
  | .delayUs => 0x0000000000000003
  | .delayMs => 0x0000000000000004
  | .i2cWriteByte => 0x0000000000000005
  | .i2cWriteBytes => 0x0000000000000006
  | .i2cReadBytes => 0x0000000000000007
  | .measure => 0x0000000000000008

/-- `MASK(m)` (30_encoding R93). -/
def Mnemonic.maskWord : Mnemonic → Desc
  | .initClock => 0xFFFFFFFFFFFFFFFF
  | .clockNow => 0xFFFFFFFFFFFFFFFF
  | .delayUs => 0x00000000FFFFFFFF
  | .delayMs => 0x00000000FFFFFFFF
  | .i2cWriteByte => 0xFFFFFFFFFFF0080F
  | .i2cWriteBytes => 0x00000000F00FF80F
  | .i2cReadBytes => 0x00000000F000080F
  | .measure => 0x00000000FFFFFFFF

/-- `d & MASK(m) = MATCH(m)` (30_encoding R93). -/
def Mnemonic.selects (m : Mnemonic) (d : Desc) : Bool := d &&& m.maskWord == m.matchWord

/-- The command of a descriptor that selects `m`: its operands are the fields `m` uses (30_encoding R92). -/
def Mnemonic.instr (m : Mnemonic) (d : Desc) : Instr :=
  match m with
  | .initClock => .initClock
  | .clockNow => .clockNow
  | .delayUs => .delayUs (Desc.arg d)
  | .delayMs => .delayMs (Desc.arg d)
  | .i2cWriteByte => .i2cWriteByte (Desc.addr d) (Desc.data d)
  | .i2cWriteBytes => .i2cWriteBytes (Desc.addr d) (Desc.count d) (Desc.arg d)
  | .i2cReadBytes => .i2cReadBytes (Desc.addr d) (Desc.data d) (Desc.count d) (Desc.arg d)
  | .measure => .measure (Desc.arg d)

/-- Why a descriptor is illegal (30_encoding R94): all three complete with `ILLEGAL_COMMAND`. -/
inductive IllegalDesc where
  /-- `OP` is 0x0 or 0x9..0xF. -/
  | reservedOpcode (op : BitVec 4)
  /-- `RSV_A` or `RSV_B` is not zero. -/
  | reservedBit
  /-- A field the opcode does not use is not zero. -/
  | unusedField
  deriving DecidableEq, Repr

/-- The name of an illegal descriptor's first defect (30_encoding R94). -/
def illegalReason (d : Desc) : IllegalDesc :=
  if Desc.op d = 0 ∨ 9 ≤ (Desc.op d).toNat then .reservedOpcode (Desc.op d)
  else if Desc.rsvA d ≠ 0 ∨ Desc.rsvB d ≠ 0 then .reservedBit
  else .unusedField

/-- The decoder, total on descriptors (30_encoding R93, R94, R104). -/
def decode (d : Desc) : Except IllegalDesc Instr :=
  match Mnemonic.all.find? (fun m => m.selects d) with
  | some m => .ok (m.instr d)
  | none => .error (illegalReason d)

/-- The mnemonic of a command. -/
def Instr.mnemonic : Instr → Mnemonic
  | .initClock => .initClock
  | .clockNow => .clockNow
  | .delayUs _ => .delayUs
  | .delayMs _ => .delayMs
  | .i2cWriteByte _ _ => .i2cWriteByte
  | .i2cWriteBytes _ _ _ => .i2cWriteBytes
  | .i2cReadBytes _ _ _ _ => .i2cReadBytes
  | .measure _ => .measure

/-- A descriptor from its fields, the reserved ones 0 (30_encoding R90). -/
def Desc.make (op : BitVec 4) (addr : Addr7) (data : Byte) (count : Byte) (arg : Word) : Desc :=
  arg ++ (0 : BitVec 4) ++ count ++ data ++ (0 : BitVec 1) ++ addr ++ op

/-- The descriptor of a command: unused fields and reserved bits 0 (30_encoding R92). -/
def encode (i : Instr) : Desc :=
  match i with
  | .initClock => Desc.make 0x1 0 0 0 0
  | .clockNow => Desc.make 0x2 0 0 0 0
  | .delayUs n => Desc.make 0x3 0 0 0 n
  | .delayMs n => Desc.make 0x4 0 0 0 n
  | .i2cWriteByte addr data => Desc.make 0x5 addr data 0 0
  | .i2cWriteBytes addr count buf => Desc.make 0x6 addr 0 count buf
  | .i2cReadBytes addr reg count buf => Desc.make 0x7 addr reg count buf
  | .measure timeout => Desc.make 0x8 0 0 0 timeout

/-- The command an assembler makes of a line, or a refusal: a number outside its field (30_encoding R102). -/
def AsmLine.assemble (l : AsmLine) : Option Instr :=
  if l.wellFormed then
    some (match l with
      | .initClock => .initClock
      | .clockNow => .clockNow
      | .delayUs n => .delayUs (BitVec.ofNat 32 n)
      | .delayMs n => .delayMs (BitVec.ofNat 32 n)
      | .i2cWriteByte addr byte => .i2cWriteByte (BitVec.ofNat 7 addr) (BitVec.ofNat 8 byte)
      | .i2cWriteBytes addr count buf =>
          .i2cWriteBytes (BitVec.ofNat 7 addr) (BitVec.ofNat 8 count) (BitVec.ofNat 32 buf)
      | .i2cReadBytes addr reg count buf =>
          .i2cReadBytes (BitVec.ofNat 7 addr) (BitVec.ofNat 8 reg) (BitVec.ofNat 8 count) (BitVec.ofNat 32 buf)
      | .measure timeout => .measure (BitVec.ofNat 32 timeout))
  else none

/-- The command the decoder reads from the descriptor whose bits below `nbits` are those of `w` and whose other bits
are 0. The descriptor is one 64-bit value, with no byte order to lay out (20_memory R68, log 17). -/
def decodeTableWord (nbits w : Nat) : Option Instr :=
  match decode (BitVec.ofNat 64 (w % 2 ^ nbits)) with
  | .ok i => some i
  | .error _ => none

end Sys2Proof
end

