-- ==== Sys2Proof/Machine/Operands.lean ====
section
/-! DEFINITION. Operand assembly (30_encoding R91), the register words SEQ writes (30_encoding R97 to R101), buffer
addresses (20_memory R61), admission (20_memory R69), the counter's width (10_state R34) and the distance (42_ranger R184). -/

namespace Sys2Proof.Machine

/-- What an issue latches of a descriptor (30_encoding R91). -/
def Cmd.ofDesc (d : Desc) : Cmd where
  desc := d
  op := Desc.op d
  addr := Desc.addr d
  data := Desc.data d
  count := Desc.count d
  arg := Desc.arg d

/-- The command whose phases `C_OP` selects, with the latched operands (10_state R21: what a phase does is given by the
rule of the command in `C_OP`); none for a reserved opcode. Log 15. -/
def Cmd.instr (c : Cmd) : Option Instr :=
  match c.op with
  | 0x1#4 => some .initClock
  | 0x2#4 => some .clockNow
  | 0x3#4 => some (.delayUs c.arg)
  | 0x4#4 => some (.delayMs c.arg)
  | 0x5#4 => some (.i2cWriteByte c.addr c.data)
  | 0x6#4 => some (.i2cWriteBytes c.addr c.count c.arg)
  | 0x7#4 => some (.i2cReadBytes c.addr c.data c.count c.arg)
  | 0x8#4 => some (.measure c.arg)
  | _ => none

/-- One bit as a 32-bit word. -/
def bitWord (b : Bool) : Word := (BitVec.ofBool b).setWidth 32

/-- `CTRL_WORD(nbytes, rdwrn, autoend)` for address `addr` (30_encoding R97). -/
def ctrlWord (addr : Addr7) (nbytes : Byte) (rdwrn autoend : Bool) : Word :=
  bitWord autoend <<< 19 ||| bitWord true <<< 17 ||| bitWord rdwrn <<< 16 ||| nbytes.setWidth 32 <<< 8
    ||| addr.setWidth 32 <<< 1

/-- `CTRL.STOP`, bit 18 (10_state R29, 30_encoding R99). -/
def ctrlStopBit : Word := 0x00040000

/-- The `CLEAR` word SEQ writes, `STOPCF` alone (30_encoding R100). -/
def clearWord : Word := 0x00000010

/-- The `TXDR` word for a byte (30_encoding R101). -/
def txdrWord (b : Byte) : Word := b.setWidth 32

/-- The byte SEQ takes of an `RXDR` word: bits 7:0 (41_i2c R150). -/
def rxdrByte (v : Word) : Byte := v.setWidth 8

/-- The address byte PER sends after a START, from a `CTRL` word (30_encoding R98, 20_memory R84). -/
def wireAddressByte (ctrl : Word) : Byte := (ctrl.extractLsb' 1 7).setWidth 8 <<< 1 ||| (ctrl.extractLsb' 16 1).setWidth 8

/-- The address of byte `idx` of the buffer at `buf`, modulo 2^32 (20_memory R61). -/
def bufferAddress (buf : Word) (idx : BitVec 9) : Word := buf + idx.setWidth 32

/-- The offset of a peripheral register from `I2C_BASE` (20_memory R64); no rule of SEQ reads it. -/
def PReg.offset : PReg → Word
  | .ctrl => 0x00
  | .status => 0x04
  | .clear => 0x08
  | .txdr => 0x0C
  | .rxdr => 0x10

/-- The address of a peripheral register (20_memory R64). The spec states no width for `I2C_BASE`: 32 bits, with the offset added
modulo 2^32, is a DESIGN CHOICE, safe, log 4; no rule reads an address of the peripheral. -/
def PReg.address (c : Config) (r : PReg) : Word := c.i2cBase + r.offset

/-- Is `a` a byte of this range? The range wraps at 2^32. -/
def Region.holds (r : Region) (a : Word) : Bool := (a - r.base).toNat < r.size

/-- `HMEM_ADMIT(a)` (20_memory R69). -/
def admits (c : Config) (a : Word) : Bool := c.hmem.any (fun r => Region.holds r a)

/-- A counter value cut to `CLK_W` bits (10_state R34). -/
def cutCnt (c : Config) (v : Word) : Word := BitVec.ofNat 32 (v.toNat % 2 ^ c.clkW)

/-- The counter one tick later, modulo 2^`CLK_W` (60_exceptions R220). -/
def nextCnt (c : Config) (v : Word) : Word := BitVec.ofNat 32 ((v.toNat + 1) % 2 ^ c.clkW)

/-- Elapsed ticks between two counter values, modulo 2^`CLK_W` (40_clock R127). -/
def elapsed (c : Config) (t1 t2 : Word) : Word := cutCnt c (t2 - t1)

/-- `DISTANCE(d)` (42_ranger R184). -/
def distance (d : Word) : Word := d / Config.cal

/-- Does the echo counter exceed the timeout (42_ranger R183)? -/
def echoExceeds (ecnt : BitVec 33) (timeout : Word) : Bool := timeout.setWidth 33 < ecnt

end Sys2Proof.Machine
end

