-- ==== Sys2Proof/Machine/Ops.lean ====
section
/-! DEFINITION. The named operations of the rules (00_scope R11): memory, peripheral, clock, timer and pin accesses, phase
control, completing a command, recording a model fault, the wait step and the abort; and the steps of CLK, MST and HOST. -/

namespace Sys2Proof.Machine

/-! ### Host memory (20_memory R61) -/

/-- What an address that memory does not list reads as. DESIGN CHOICE, unsafe, log 9. -/
def Memory.unlisted : Byte := 0

/-- The byte at address `a`. -/
def Memory.read (m : Memory) (a : Nat) : Byte :=
  match m with
  | [] => Memory.unlisted
  | (b, v) :: rest => if a = b then v else Memory.read rest a

/-- Memory without an entry for `a` (of a list by rising address). -/
def Memory.erase (m : Memory) (a : Nat) : Memory :=
  match m with
  | [] => []
  | (b, w) :: rest => if a = b then rest else if a < b then (b, w) :: rest else (b, w) :: Memory.erase rest a

/-- Memory with the entry `(a, v)` (of a list by rising address). -/
def Memory.insert (m : Memory) (a : Nat) (v : Byte) : Memory :=
  match m with
  | [] => [(a, v)]
  | (b, w) :: rest =>
      if a = b then (a, v) :: rest else if a < b then (a, v) :: (b, w) :: rest else (b, w) :: Memory.insert rest a v

/-- Memory after byte `v` is written at `a`, in canonical form. -/
def Memory.write (m : Memory) (a : Nat) (v : Byte) : Memory :=
  if v = Memory.unlisted then Memory.erase m a else Memory.insert m a v

/-- The entries are below 2^32, above `lo`, by strictly rising address, and none equals what an unlisted address reads as. -/
def Memory.wfFrom (lo : Nat) (m : Memory) : Bool :=
  match m with
  | [] => true
  | (b, v) :: rest => lo ≤ b && b < 2 ^ 32 && v != Memory.unlisted && Memory.wfFrom (b + 1) rest

/-- The canonical form of memory. -/
def Memory.wf (m : Memory) : Bool := Memory.wfFrom 0 m

/-! ### Events, phases, completion, faults -/

/-- `SEQ_BUSY` (10_state R27). -/
def State.busy (s : State) : Bool := s.phase != .idle

/-- Append an event to `HIST` (10_state R41). -/
def State.emit (e : Event) (s : State) : State := { s with hist := s.hist ++ [e] }

/-- `PHASE <- p`; entering a poll phase from another phase clears `POLLS` (41_i2c R140, R142). -/
def State.goto (p : Phase) (s : State) : State :=
  if p.isPoll && p != s.phase then { s with phase := p, work.polls := 0 } else { s with phase := p }

/-- `complete(c)` (60_exceptions R225): `RES_STATUS`, the event, `PHASE <- IDLE`. -/
def State.complete (c : Code) (s : State) : State :=
  { s with phase := .idle, res.status := c, res.statusWritten := true, hist := s.hist ++ [.complete c] }

/-- A fault kind added to `FAULTS`, with what is recorded with it (60_exceptions R212). -/
def Faults.add (f : ModelFault) (x : Faults) : Faults :=
  match f with
  | .reentrant d => { x with reentrant := some d }
  | .clockReinit => { x with clockReinit := true }
  | .unwrittenRead r => { x with unwrittenRead := some r }

/-- `FAULTS` holds no fault (10_state R40). -/
def Faults.isEmpty (x : Faults) : Bool := x.reentrant.isNone && !x.clockReinit && x.unwrittenRead.isNone

/-- `raise Fault(f)` (60_exceptions R212): SEQ stays where it was. -/
def State.raise (f : ModelFault) (s : State) : State :=
  { s with faults := s.faults.add f, hist := s.hist ++ [.fault f] }

/-- SEQ takes no further step after its own fault (60_exceptions R212). -/
def State.seqFaulted (s : State) : Bool := s.faults.clockReinit

/-- HOST takes no further step after a fault of its own (60_exceptions R212). -/
def State.hostFaulted (s : State) : Bool := s.faults.reentrant.isSome || s.faults.unwrittenRead.isSome

/-! ### The environment's choices (00_scope R6, R13) -/

/-- The next draw: the oldest pending one, else a free one. Log 2. -/
def State.draw (s : State) : Draw :=
  match s.env.draws with
  | d :: _ => d
  | [] => Config.freeDraw s.env.drawCount

/-- The state after the next draw is taken. -/
def State.dropDraw (s : State) : State :=
  match s.env.draws with
  | _ :: ds => { s with env.draws := ds }
  | [] => { s with env.drawCount := s.env.drawCount + 1 }

/-- The agent that moves next: the oldest pending choice, else a free one. Log 1. -/
def State.move (s : State) : Move :=
  match s.env.moves with
  | m :: _ => m
  | [] => Config.freeMove s.env.moveCount

/-- The state after the next move is taken. -/
def State.dropMove (s : State) : State :=
  match s.env.moves with
  | _ :: ms => { s with env.moves := ms }
  | [] => { s with env.moveCount := s.env.moveCount + 1 }

/-! ### External accesses of SEQ (00_scope R11) -/

/-- The peripheral register `r` holds `v`. -/
def PerRegs.set (r : PReg) (v : Word) (x : PerRegs) : PerRegs :=
  match r with
  | .ctrl => { x with ctrl := v }
  | .status => { x with status := v }
  | .clear => { x with clear := v }
  | .txdr => { x with txdr := v }
  | .rxdr => { x with rxdr := v }

/-- The value the next `PRead` returns: a draw (20_memory R66). -/
def State.preadValue (s : State) : Word := s.draw.word

/-- The state after `PRead(r)` (20_memory R63): the draw is taken and the read recorded. -/
def State.pread (r : PReg) (s : State) : State :=
  { s.dropDraw with per := s.per.set r s.preadValue, hist := s.hist ++ [.pRd r s.preadValue] }

/-- `PWrite(r, v)` (20_memory R63). -/
def State.pwrite (r : PReg) (v : Word) (s : State) : State :=
  { s with per := s.per.set r v, hist := s.hist ++ [.pWr r v] }

/-- `SetStop()` (30_encoding R99). -/
def State.setStop (s : State) : State :=
  { s with per.ctrl := s.per.ctrl ||| ctrlStopBit, hist := s.hist ++ [.pStop] }

/-- The byte `MemRead(a, 1)` returns. -/
def State.memByte (a : Word) (s : State) : Byte := Memory.read s.mem a.toNat

/-- The state after an admitted `MemRead(a, 1)`. -/
def State.memRead (a : Word) (s : State) : State := { s with hist := s.hist ++ [.mRd a (s.memByte a)] }

/-- The state after an admitted `MemWrite(a, 1, v)`. -/
def State.memWrite (a : Word) (v : Byte) (s : State) : State :=
  { s with mem := Memory.write s.mem a.toNat v, hist := s.hist ++ [.mWr a v] }

/-- Is the access at `a` admitted (20_memory R69)? -/
def State.admitted (a : Word) (s : State) : Bool := admits s.cfg a

/-- The state after `ClkRead()`; the value read is `CNT`. -/
def State.clkRead (s : State) : State := s.emit (.clkRd s.clk.cnt)

/-- `UifClear()` (10_state R35). -/
def State.uifClear (s : State) : State := { s with clk.uif := false, hist := s.hist ++ [.uifClr] }

/-- `MstArm()` (10_state R37). -/
def State.mstArm (s : State) : State := { s with mst := { armed := true, done := false }, hist := s.hist ++ [.msArm] }

/-- `Trig(l)` (10_state R38). -/
def State.drive (l : Bool) (s : State) : State := { s with trig := l, hist := s.hist ++ [.trigWr l] }

/-- The level the next `EchoSample()` returns: a draw (10_state R39). -/
def State.echoLevel (s : State) : Bool := s.draw.bit

/-- The state after `EchoSample()`. -/
def State.echoSample (s : State) : State := { s.dropDraw with hist := s.hist ++ [.echoRd s.echoLevel] }

/-! ### The wait step and the abort (41_i2c R140, R142) -/

/-- `abort(e)`: from the failing wait (41_i2c R142). -/
def State.abort (e : Code) (s : State) : State := { s with work.err := e, phase := .i2AbStop }

/-- `on_fail(err)` of a wait (41_i2c R140). -/
def State.waitFail (w : Wait) (s : State) : State := if w.aborts then s.abort w.err.code else s.complete w.err.code

/-- One poll of the wait `w`, followed by phase `next` when the wait is over (41_i2c R140). -/
def State.waitStep (w : Wait) (next : Phase) (s : State) : State :=
  if w.holds s.preadValue then (s.pread .status).goto next
  else
    match s.cfg.mode with
    | .baseline => (s.pread .status).goto w.phase
    | .bounded =>
        if s.work.polls + 1 = s.cfg.pollLimit then
          State.waitFail w { s.pread .status with work.polls := s.work.polls + 1 }
        else State.goto w.phase { s.pread .status with work.polls := s.work.polls + 1 }

/-- The phase `I2_AB_STOP` (41_i2c R142). -/
def State.abortStop (s : State) : State := { s.setStop with work.polls := 0, phase := .i2AbPoll }

/-- The phase `I2_AB_POLL` (41_i2c R142): the abort's own poll never changes the error. -/
def State.abortPoll (s : State) : State :=
  if StatusWord.stopf s.preadValue then { s.pread .status with phase := .i2AbClear }
  else if s.work.polls + 1 = s.cfg.pollLimit then
    { s.pread .status with work.polls := s.work.polls + 1, phase := .i2AbClear }
  else { s.pread .status with work.polls := s.work.polls + 1, phase := .i2AbPoll }

/-- The phase `I2_AB_CLEAR` (41_i2c R142). -/
def State.abortClear (s : State) : State := (s.pwrite .clear clearWord).complete s.work.err

/-! ### The delay sub-procedures (40_clock R123, R125) -/

/-- "return" of a delay sub-procedure (40_clock R123). -/
def State.delayReturn (s : State) : State :=
  match s.work.ret with
  | .done => s.complete Status.ok.code
  | .back p => s.goto p

/-- Entry to `DELAY_US` with `DREM` and `RET` (40_clock R123). -/
def State.enterDelayUs (n : Word) (ret : Ret) (s : State) : State :=
  { s with work.drem := n, work.ret := ret, phase := .duEntry }

/-- The phase `DU_ENTRY` (40_clock R123). -/
def State.duEntry (s : State) : State := if s.work.drem = 0 then s.delayReturn else { s.uifClear with phase := .duWait }

/-- The phase `DU_WAIT` (40_clock R123): a hold until `UIF = 1`. Log 12. -/
def State.duWait (s : State) : State := if s.clk.uif then { s.emit .uifRd with phase := .duClear } else s

/-- The phase `DU_CLEAR` (40_clock R123). -/
def State.duClear (s : State) : State :=
  if s.work.drem - 1 = 0 then State.delayReturn { s.uifClear with work.drem := s.work.drem - 1 }
  else { s.uifClear with work.drem := s.work.drem - 1, phase := .duWait }

/-- Entry to `DELAY_MS` with `MREM` and `RET` (40_clock R125). -/
def State.enterDelayMs (n : Word) (ret : Ret) (s : State) : State :=
  { s with work.mrem := n, work.ret := ret, phase := .dmArm }

/-- The phase `DM_ARM` (40_clock R125). -/
def State.dmArm (s : State) : State := if s.work.mrem = 0 then s.delayReturn else { s.mstArm with phase := .dmWait }

/-- The phase `DM_WAIT` (40_clock R125): a hold until `MS_DONE = 1`. Log 12. -/
def State.dmWait (s : State) : State :=
  if s.mst.done then { s.emit .msDoneRd with work.mrem := s.work.mrem - 1, phase := .dmArm } else s

/-! ### The steps of CLK and MST (60_exceptions R220, R221) -/

/-- CLK's tick step, enabled exactly when `RUN = 1` (60_exceptions R220). -/
def State.tick (s : State) : State :=
  { s with clk.cnt := nextCnt s.cfg s.clk.cnt, clk.uif := true, hist := s.hist ++ [.tick] }

/-- MST's expiry step, enabled exactly when `MS_ARMED = 1` (60_exceptions R221). -/
def State.msExpire (s : State) : State := { s with mst := { armed := false, done := true }, hist := s.hist ++ [.msExpire] }

/-! ### The moves of HOST (60_exceptions R224, R226) -/

/-- The latches of an issue and `PHASE <- DECODE` (30_encoding R91, 60_exceptions R224). -/
def State.latch (d : Desc) (s : State) : State := { s with cmd := Cmd.ofDesc d, phase := .decode }

/-- HOST issues `d` (60_exceptions R224): latched when idle, else `REENTRANT`, and the running command is unaffected. -/
def State.issue (d : Desc) (s : State) : State :=
  if s.busy then s.raise (.reentrant d) else (s.emit (.issue d)).latch d

/-- The value of host register `r`, none where it holds no value (10_state R23, R48). -/
def State.hostRegister (r : Nat) (s : State) : Option Word :=
  match r with
  | 0 => some (bitWord s.busy)
  | 1 => if s.res.statusWritten then some (s.res.status.setWidth 32) else none
  | 2 => if s.res.valueWritten then some s.res.value else none
  | 3 => if s.res.rngWritten then some (bitWord s.res.rngValid) else none
  | 4 => if s.res.rngWritten then some s.res.rngDuration else none
  | 5 => if s.res.rngWritten then some s.res.rngDistance else none
  | _ => none

/-- HOST reads host register `r` (60_exceptions R226): refused from number 6 on (10_state R23). -/
def State.hostRead (r : Nat) (s : State) : Result :=
  if 6 ≤ r then .refused (.hostNoSuchRegister r)
  else
    match s.hostRegister r with
    | some v => .next { s with hostData := v }
    | none => .next (s.raise (.unwrittenRead r))

/-- HOST writes host register `r`: refused (10_state R23). -/
def State.hostWrite (r : Nat) (_v : Word) (_s : State) : Result :=
  if 6 ≤ r then .refused (.hostNoSuchRegister r) else .refused (.hostRegisterReadOnly r)

/-- HOST writes host memory, which it may only while `SEQ_BUSY = 0` (60_exceptions R224). -/
def State.hostStore (a : Word) (v : Byte) (s : State) : Result :=
  if s.busy then .refused (.hostStoreWhileBusy a) else .next { s with mem := Memory.write s.mem a.toNat v }

end Sys2Proof.Machine
end

