-- ==== Sys2Proof/Machine/Clock.lean ====
section
/-! DEFINITION. The clock family (40_clock): `INIT_CLOCK`, `CLOCK_NOW`, `DELAY_US`, `DELAY_MS`. A meaning is one SEQ step of
the command at `PHASE` (00_scope R10, log 3); a phase that is no point of the command is `strayPhase` (log 15). -/

namespace Sys2Proof.Machine

/-- `CK_INIT` (40_clock R121). -/
def State.ckInit (s : State) : State :=
  if s.clk.run then s.raise .clockReinit
  else
    State.complete Status.ok.code
      { s.dropDraw with clk := { cnt := cutCnt s.cfg s.draw.word, uif := s.draw.bit, run := true }, hist := s.hist ++ [.clkInit] }

/-- `CK_NOW` (40_clock R122). -/
def State.ckNow (s : State) : State :=
  State.complete Status.ok.code { s.clkRead with res.value := s.clk.cnt, res.valueWritten := true }

/-- One SEQ step of `INIT_CLOCK` (40_clock R121, 30_encoding R104). -/
def execInitClock (s : State) : Result :=
  match s.phase with
  | .decode => .next (s.goto .ckInit)
  | .ckInit => .next s.ckInit
  | p => .fault (.strayPhase p)

/-- One SEQ step of `CLOCK_NOW` (40_clock R122, 30_encoding R104). -/
def execClockNow (s : State) : Result :=
  match s.phase with
  | .decode => .next (s.goto .ckNow)
  | .ckNow => .next s.ckNow
  | p => .fault (.strayPhase p)

/-- One SEQ step of `DELAY_US n` (40_clock R123, R124, 30_encoding R104). -/
def execDelayUs (n : Word) (s : State) : Result :=
  match s.phase with
  | .decode => .next (s.enterDelayUs n .done)
  | .duEntry => .next s.duEntry
  | .duWait => .next s.duWait
  | .duClear => .next s.duClear
  | p => .fault (.strayPhase p)

/-- One SEQ step of `DELAY_MS n` (40_clock R125, R126, 30_encoding R104). -/
def execDelayMs (n : Word) (s : State) : Result :=
  match s.phase with
  | .decode => .next (s.enterDelayMs n .done)
  | .dmArm => .next s.dmArm
  | .dmWait => .next s.dmWait
  | p => .fault (.strayPhase p)

end Sys2Proof.Machine
end

