-- ==== Sys2Proof/Machine/I2c.lean ====
section
/-! DEFINITION. The I2C family (41_i2c): `I2C_WRITE_BYTE`, `I2C_WRITE_BYTES`, `I2C_READ_BYTES`. A meaning is one SEQ step of the
command at `PHASE` (00_scope R10, log 3); a phase that is no point of the command is `strayPhase` (log 15). -/

namespace Sys2Proof.Machine

/-- ConfigureAndStart of a write of `count` bytes from memory (41_i2c R147). -/
def State.startWrite (addr : Addr7) (count : Byte) (s : State) : State :=
  State.goto (if count = 0 then .i2TcPoll else .i2TxPoll) { s.pwrite .ctrl (ctrlWord addr count false false) with work.idx := 0 }

/-- `I2_TX_FETCH` (41_i2c R147); a byte not admitted leaves SEQ stuck (20_memory R69, log 10). -/
def State.txFetch (buf : Word) (s : State) : Result :=
  if s.admitted (bufferAddress buf s.work.idx) then
    .next { s.memRead (bufferAddress buf s.work.idx) with
              work.byte := s.memByte (bufferAddress buf s.work.idx), phase := .i2TxWrite }
  else .fault (.hmemNotAdmitted (bufferAddress buf s.work.idx))

/-- `I2_TX_WRITE` of a buffer byte (41_i2c R147). -/
def State.txWrite (count : Byte) (s : State) : State :=
  State.goto (if s.work.idx + 1 < count.setWidth 9 then .i2TxPoll else .i2TcPoll)
    { s.pwrite .txdr (txdrWord s.work.byte) with work.idx := s.work.idx + 1 }

/-- `I2_RESTART`: the read of `count` bytes with STOP on completion (41_i2c R150). -/
def State.restart (addr : Addr7) (count : Byte) (s : State) : State :=
  State.goto (if count = 0 then .i2StopfPoll else .i2RxPoll) { s.pwrite .ctrl (ctrlWord addr count true true) with work.idx := 0 }

/-- `I2_RX_READ` (41_i2c R150). -/
def State.rxRead (s : State) : State := { s.pread .rxdr with work.byte := rxdrByte s.preadValue, phase := .i2RxStore }

/-- `I2_RX_STORE` (41_i2c R150); a byte not admitted leaves SEQ stuck (20_memory R69, log 10). -/
def State.rxStore (count : Byte) (buf : Word) (s : State) : Result :=
  if s.admitted (bufferAddress buf s.work.idx) then
    .next (State.goto (if s.work.idx + 1 < count.setWidth 9 then .i2RxPoll else .i2StopfPoll)
      { s.memWrite (bufferAddress buf s.work.idx) s.work.byte with work.idx := s.work.idx + 1 })
  else .fault (.hmemNotAdmitted (bufferAddress buf s.work.idx))

/-- `I2_STOPF_CLEAR`: the end of a transaction (41_i2c R145, R147, R150). -/
def State.stopfClear (s : State) : State := (s.pwrite .clear clearWord).complete Status.ok.code

/-- One SEQ step of `I2C_WRITE_BYTE` (41_i2c R140, R142, R145). -/
def execI2cWriteByte (addr : Addr7) (data : Byte) (s : State) : Result :=
  match s.phase with
  | .decode => .next (s.goto .i2IdlePoll)
  | .i2IdlePoll => .next (s.waitStep .idle .i2Start)
  | .i2Start => .next ((s.pwrite .ctrl (ctrlWord addr 1 false false)).goto .i2TxPoll)
  | .i2TxPoll => .next (s.waitStep .tx .i2TxWrite)
  | .i2TxWrite => .next ((s.pwrite .txdr (txdrWord data)).goto .i2TcPoll)
  | .i2TcPoll => .next (s.waitStep .tc .i2Stop)
  | .i2Stop => .next (s.setStop.goto .i2StopfPoll)
  | .i2StopfPoll => .next (s.waitStep .stopf .i2StopfClear)
  | .i2StopfClear => .next s.stopfClear
  | .i2AbStop => .next s.abortStop
  | .i2AbPoll => .next s.abortPoll
  | .i2AbClear => .next s.abortClear
  | p => .fault (.strayPhase p)

/-- One SEQ step of `I2C_WRITE_BYTES` (41_i2c R140, R142, R147). -/
def execI2cWriteBytes (addr : Addr7) (count : Byte) (buf : Word) (s : State) : Result :=
  match s.phase with
  | .decode => .next (s.goto .i2IdlePoll)
  | .i2IdlePoll => .next (s.waitStep .idle .i2Start)
  | .i2Start => .next (s.startWrite addr count)
  | .i2TxPoll => .next (s.waitStep .tx .i2TxFetch)
  | .i2TxFetch => s.txFetch buf
  | .i2TxWrite => .next (s.txWrite count)
  | .i2TcPoll => .next (s.waitStep .tc .i2Stop)
  | .i2Stop => .next (s.setStop.goto .i2StopfPoll)
  | .i2StopfPoll => .next (s.waitStep .stopf .i2StopfClear)
  | .i2StopfClear => .next s.stopfClear
  | .i2AbStop => .next s.abortStop
  | .i2AbPoll => .next s.abortPoll
  | .i2AbClear => .next s.abortClear
  | p => .fault (.strayPhase p)

/-- One SEQ step of `I2C_READ_BYTES` (41_i2c R140, R142, R150). -/
def execI2cReadBytes (addr : Addr7) (reg : Byte) (count : Byte) (buf : Word) (s : State) : Result :=
  match s.phase with
  | .decode => .next (s.goto .i2IdlePoll)
  | .i2IdlePoll => .next (s.waitStep .idle .i2Start)
  | .i2Start => .next ((s.pwrite .ctrl (ctrlWord addr 1 false false)).goto .i2TxPoll)
  | .i2TxPoll => .next (s.waitStep .tx .i2TxWrite)
  | .i2TxWrite => .next ((s.pwrite .txdr (txdrWord reg)).goto .i2TcPoll)
  | .i2TcPoll => .next (s.waitStep .tc .i2Restart)
  | .i2Restart => .next (s.restart addr count)
  | .i2RxPoll => .next (s.waitStep .rx .i2RxRead)
  | .i2RxRead => .next s.rxRead
  | .i2RxStore => s.rxStore count buf
  | .i2StopfPoll => .next (s.waitStep .stopf .i2StopfClear)
  | .i2StopfClear => .next s.stopfClear
  | .i2AbStop => .next s.abortStop
  | .i2AbPoll => .next s.abortPoll
  | .i2AbClear => .next s.abortClear
  | p => .fault (.strayPhase p)

end Sys2Proof.Machine
end

