-- ==== Sys2Proof/Machine/Ranger.lean ====
section
/-! DEFINITION. The ranging family (42_ranger): `MEASURE`, with TRIGGER_PULSE, READ_ECHO, DISTANCE and the settle. The meaning is
one SEQ step of the command at `PHASE` (00_scope R10, log 3); a phase that is no point of it is `strayPhase` (log 15). -/

namespace Sys2Proof.Machine

/-- `RG_TRIG0` and `RG_TRIG1`: drive a level and hold it for `TRIG_US` ticks (42_ranger R182). -/
def State.trigHold (l : Bool) (back : Phase) (s : State) : State := (s.drive l).enterDelayUs Config.trigUs (.back back)

/-- `RG_TRIG2`: drive low; READ_ECHO begins (42_ranger R182). -/
def State.trigEnd (s : State) : State := { s.drive false with work.ecnt := 0, phase := .rgASample }

/-- `goto settle` with the outcome of READ_ECHO (42_ranger R181, R183). -/
def State.settle (val : Bool) (dur : Word) (ekind : Status) (s : State) : State :=
  State.enterDelayMs s.cfg.settleMs (.back .rgSettle)
    { s with work.val := val, work.dur := dur, work.ekind := ekind.code }

/-- `RG_A_SAMPLE`: Phase A, waiting for the rise (42_ranger R183). -/
def State.sampleA (timeout : Word) (s : State) : State :=
  if s.echoLevel then { s.echoSample with work.ecnt := 0, phase := .rgBSample }
  else if echoExceeds (s.work.ecnt + 1) timeout then
    State.settle false 0 .echoRiseTimeout { s.echoSample with work.ecnt := s.work.ecnt + 1 }
  else State.enterDelayUs 1 (.back .rgASample) { s.echoSample with work.ecnt := s.work.ecnt + 1 }

/-- `RG_B_SAMPLE`: Phase B, counting while the echo is high (42_ranger R183). -/
def State.sampleB (timeout : Word) (s : State) : State :=
  if !s.echoLevel then State.settle true (s.work.ecnt.setWidth 32) .ok s.echoSample
  else if echoExceeds (s.work.ecnt + 1) timeout then
    State.settle false 0 .echoFallTimeout { s.echoSample with work.ecnt := s.work.ecnt + 1 }
  else State.enterDelayUs 1 (.back .rgBSample) { s.echoSample with work.ecnt := s.work.ecnt + 1 }

/-- `RG_SETTLE`: the result registers, all in one step, and completion (42_ranger R181, 10_state R26). -/
def State.rgSettle (s : State) : State :=
  State.complete s.work.ekind
    { s with res.rngValid := s.work.val, res.rngDuration := s.work.dur, res.rngDistance := distance s.work.dur,
             res.rngWritten := true }

/-- One SEQ step of `MEASURE timeout` (42_ranger R181 to R184). -/
def execMeasure (timeout : Word) (s : State) : Result :=
  match s.phase with
  | .decode => .next (s.goto .rgTrig0)
  | .rgTrig0 => .next (s.trigHold false .rgTrig1)
  | .rgTrig1 => .next (s.trigHold true .rgTrig2)
  | .rgTrig2 => .next s.trigEnd
  | .rgASample => .next (s.sampleA timeout)
  | .rgBSample => .next (s.sampleB timeout)
  | .rgSettle => .next s.rgSettle
  | .duEntry => .next s.duEntry
  | .duWait => .next s.duWait
  | .duClear => .next s.duClear
  | .dmArm => .next s.dmArm
  | .dmWait => .next s.dmWait
  | p => .fault (.strayPhase p)

end Sys2Proof.Machine
end

