-- ==== Sys2Proof/Machine/Dispatch.lean ====
section
/-! DEFINITION. exec: one SEQ step of a command, one arm per constructor of Instr. -/

namespace Sys2Proof.Machine

def exec (i : Instr) (s : State) : Host.Outcome State Fault Refusal :=
  match i with
  | .initClock => Sys2Proof.Machine.execInitClock s
  | .clockNow => Sys2Proof.Machine.execClockNow s
  | .delayUs n => Sys2Proof.Machine.execDelayUs n s
  | .delayMs n => Sys2Proof.Machine.execDelayMs n s
  | .i2cWriteByte addr data => Sys2Proof.Machine.execI2cWriteByte addr data s
  | .i2cWriteBytes addr count buf => Sys2Proof.Machine.execI2cWriteBytes addr count buf s
  | .i2cReadBytes addr reg count buf => Sys2Proof.Machine.execI2cReadBytes addr reg count buf s
  | .measure timeout => Sys2Proof.Machine.execMeasure timeout s

end Sys2Proof.Machine
end

