-- ==== Sys2Proof/Machine/Sequencer.lean ====
section
/-! DEFINITION. SEQ's step (30_encoding R104, 10_state R21) and one step of the whole machine: the agent whose turn it is moves
(00_scope R6, R10). An agent that has no enabled step lets its turn pass (log 12). -/

namespace Sys2Proof.Machine

/-- `DECODE` (30_encoding R104): an illegal descriptor completes without an access (30_encoding R94), a legal one begins its
command. -/
def State.decodeStep (s : State) : Result :=
  match decode s.cmd.desc with
  | .ok i => exec i s
  | .error _ => .next (s.complete Status.illegalCommand.code)

/-- A phase after `DECODE`: the command in `C_OP`, with the latched operands (10_state R21). -/
def State.phaseStep (s : State) : Result :=
  match s.cmd.instr with
  | some i => exec i s
  | none => .fault (.strayPhase s.phase)

/-- SEQ's turn: no step in `IDLE`, none after its own fault (60_exceptions R212). -/
def State.seqStep (s : State) : Result :=
  if s.seqFaulted then .next s
  else
    match s.phase with
    | .idle => .next s
    | .decode => s.decodeStep
    | _ => s.phaseStep

/-- HOST's turn: no step after a fault of its own (60_exceptions R212). -/
def State.hostStep (act : State → Result) (s : State) : Result := if s.hostFaulted then .next s else act s

/-- The move of one agent (00_scope R6). -/
def State.act (m : Move) (s : State) : Result :=
  match m with
  | .seq => s.seqStep
  | .tick => .next (if s.clk.run then s.tick else s)
  | .msExpire => .next (if s.mst.armed then s.msExpire else s)
  | .hostIssue d => s.hostStep (fun t => .next (t.issue d))
  | .hostRead r => s.hostStep (fun t => t.hostRead r)
  | .hostWrite r v => s.hostStep (fun t => t.hostWrite r v)
  | .hostReadCmd => s.hostStep (fun _ => .refused .hostCommandPortWriteOnly)
  | .hostStore a v => s.hostStep (fun t => t.hostStore a v)

/-- One step of the machine: the next move is taken from the environment and made. -/
def State.machineStep (s : State) : Result := s.dropMove.act s.move

/-- The state in which descriptor `d` is latched and it is SEQ's turn, with SEQ free to step (log 17). -/
def State.withDescriptor (d : Desc) (s : State) : State :=
  { s.latch d with faults.clockReinit := false, env.moves := .seq :: s.env.moves }

end Sys2Proof.Machine
end

