-- ==== Sys2Proof/Machine/Step.lean ====
section
/-! DEFINITION. The step of the machine, and the placing of an instruction where the next step decodes it. -/

namespace Sys2Proof.Machine

/-- One step of OD-SEQ and its environment (00_scope R10). -/
def step (s : State) : Host.Outcome State Fault Refusal := s.machineStep

/-- `s` with the descriptor of bits `w` below `nbits` latched at `DECODE`, SEQ's turn next (log 17): OD-SEQ fetches nothing
(20_memory R60), so this stands for HOST's issue of the descriptor. -/
def State.withFetchWord (s : State) (nbits w : Nat) : State := s.withDescriptor (BitVec.ofNat 64 (w % 2 ^ nbits))

end Sys2Proof.Machine
end

