-- ==== Sys2Proof/Machine/Assembler.lean ====
section
/-! DEFINITION. The assembler's text (30_encoding R102): one command a line, operands separated by commas, numbers in decimal or
`0x` hexadecimal, `;` starts a comment. Blanks around words and numbers are skipped (log 24). -/

namespace Sys2Proof.Machine.Asm

/-- Why a line is refused. -/
inductive AsmError where
  | unknownMnemonic
  | badNumber
  | wrongOperandCount
  | outOfRange
  deriving DecidableEq, Repr

/-- The characters before a comment. -/
def beforeComment (cs : List Char) : List Char :=
  match cs with
  | [] => []
  | c :: rest => if c = ';' then [] else c :: beforeComment rest

/-- Is the character a blank? -/
def isBlank (c : Char) : Bool := c = ' ' || c = '\t'

/-- Without leading and trailing blanks. -/
def trim (cs : List Char) : List Char := ((cs.dropWhile isBlank).reverse.dropWhile isBlank).reverse

/-- The pieces between commas. -/
def splitCommas (cs : List Char) : List (List Char) :=
  match cs with
  | [] => [[]]
  | c :: rest =>
      if c = ',' then [] :: splitCommas rest
      else
        match splitCommas rest with
        | p :: ps => (c :: p) :: ps
        | [] => [[c]]

/-- The value of a digit, decimal or hexadecimal. -/
def digit (c : Char) : Option Nat :=
  if '0' ≤ c ∧ c ≤ '9' then some (c.toNat - 48)
  else if 'a' ≤ c ∧ c ≤ 'f' then some (c.toNat - 87)
  else if 'A' ≤ c ∧ c ≤ 'F' then some (c.toNat - 55)
  else none

/-- The digits `cs` in base `b` after a value of `acc`. -/
def digits (b acc : Nat) (cs : List Char) : Option Nat :=
  match cs with
  | [] => some acc
  | c :: rest =>
      match digit c with
      | some v => if v < b then digits b (acc * b + v) rest else none
      | none => none

/-- A number, decimal or `0x` hexadecimal (30_encoding R102). -/
def number (cs : List Char) : Option Nat :=
  match cs with
  | [] => none
  | ['0', 'x'] => none
  | '0' :: 'x' :: rest => digits 16 0 rest
  | _ => digits 10 0 cs

/-- The operands of a line: no text is no operand. -/
def operands (cs : List Char) : Option (List Nat) :=
  if trim cs = [] then some [] else (splitCommas cs).mapM (fun p => number (trim p))

/-- The line a mnemonic and its operands make, in the operand order of 30_encoding R102. -/
def lineOf (word : List Char) (ops : List Nat) : Except AsmError AsmLine :=
  if word = ['i', 'n', 'i', 't', '_', 'c', 'l', 'o', 'c', 'k'] then
    match ops with
    | [] => .ok .initClock
    | _ => .error .wrongOperandCount
  else if word = ['c', 'l', 'o', 'c', 'k', '_', 'n', 'o', 'w'] then
    match ops with
    | [] => .ok .clockNow
    | _ => .error .wrongOperandCount
  else if word = ['d', 'e', 'l', 'a', 'y', '_', 'u', 's'] then
    match ops with
    | [n] => .ok (.delayUs n)
    | _ => .error .wrongOperandCount
  else if word = ['d', 'e', 'l', 'a', 'y', '_', 'm', 's'] then
    match ops with
    | [n] => .ok (.delayMs n)
    | _ => .error .wrongOperandCount
  else if word = ['i', '2', 'c', '.', 'w', 'r', 'i', 't', 'e', '_', 'b', 'y', 't', 'e'] then
    match ops with
    | [addr, byte] => .ok (.i2cWriteByte addr byte)
    | _ => .error .wrongOperandCount
  else if word = ['i', '2', 'c', '.', 'w', 'r', 'i', 't', 'e', '_', 'b', 'y', 't', 'e', 's'] then
    match ops with
    | [addr, count, buf] => .ok (.i2cWriteBytes addr count buf)
    | _ => .error .wrongOperandCount
  else if word = ['i', '2', 'c', '.', 'r', 'e', 'a', 'd', '_', 'b', 'y', 't', 'e', 's'] then
    match ops with
    | [addr, reg, count, buf] => .ok (.i2cReadBytes addr reg count buf)
    | _ => .error .wrongOperandCount
  else if word = ['m', 'e', 'a', 's', 'u', 'r', 'e'] then
    match ops with
    | [timeout] => .ok (.measure timeout)
    | _ => .error .wrongOperandCount
  else .error .unknownMnemonic

/-- A line of text: none if it holds no command (blank or only a comment). -/
def parse (text : List Char) : Except AsmError (Option AsmLine) :=
  let body := trim (beforeComment text)
  if body = [] then .ok none
  else
    match operands (body.dropWhile (fun c => !isBlank c)) with
    | none => .error .badNumber
    | some ops => (lineOf (body.takeWhile (fun c => !isBlank c)) ops).map some

/-- The descriptor of a line of text, none for a line without a command (30_encoding R102). -/
def assembleText (text : List Char) : Except AsmError (Option Desc) :=
  match parse text with
  | .error e => .error e
  | .ok none => .ok none
  | .ok (some l) =>
      match l.assemble with
      | some i => .ok (some (encode i))
      | none => .error .outOfRange

end Sys2Proof.Machine.Asm
end

