-- ==== Sys2Proof/Machine/Reference.lean ====
section
/-! DEFINITION. The reference peripheral (20_memory R76 to R84) and the reference schedule (20_memory R85): an environment
automaton that supplies the draws and the moves of the machine, an assumption a claim may take. The machine itself does not
depend on it (20_memory R66). Log 19. -/

namespace Sys2Proof.Machine

/-- A symbol of the wire trace (20_memory R84). -/
inductive WireSym where
  /-- START or repeated START -/
  | s
  /-- the address byte -/
  | a (b : Byte)
  /-- a data byte -/
  | d (b : Byte)
  /-- STOP -/
  | p
  deriving DecidableEq, Repr

/-- The reference peripheral's state and parameters (20_memory R76), with the wire trace so far (R84). -/
structure RefPer where
  busy : Bool
  txrdy : Bool
  rxrdy : Bool
  tc : Bool
  stopf : Bool
  /-- `REM` -/
  rem : Byte
  /-- `DIRL` -/
  dirl : Bool
  /-- `AEL` -/
  ael : Bool
  /-- `RXBUF` -/
  rxbuf : Byte
  /-- `PRESENT` -/
  present : Bool
  /-- `WEDGED` -/
  wedged : Bool
  /-- `SLAVE_BYTES`, those still to come -/
  slaveBytes : List Byte
  wire : List WireSym
  deriving DecidableEq, Repr

/-- The reference peripheral at reset (20_memory R76): the five flags, `REM` and `RXBUF` are 0 there. The rule gives `DIRL` and
`AEL` no reset value (nor does 70_reset R240, which points to it): false for both is a DESIGN CHOICE, safe, log 19. -/
def RefPer.reset (present wedged : Bool) (slaveBytes : List Byte) : RefPer where
  busy := false
  txrdy := false
  rxrdy := false
  tc := false
  stopf := false
  rem := 0
  dirl := false
  ael := false
  rxbuf := 0
  present := present
  wedged := wedged
  slaveBytes := slaveBytes
  wire := []

/-- What `PRead(STATUS)` returns (20_memory R77). -/
def RefPer.statusWord (x : RefPer) : Word :=
  bitWord x.stopf <<< 4 ||| bitWord x.tc <<< 3 ||| bitWord x.rxrdy <<< 2 ||| bitWord x.txrdy <<< 1
    ||| bitWord (x.wedged || x.busy)

/-- `advance()` (20_memory R79). -/
def RefPer.advance (x : RefPer) : RefPer :=
  if x.rem ≠ 0 then
    if x.dirl then
      match x.slaveBytes with
      | b :: bs => { x with rxbuf := b, slaveBytes := bs, rxrdy := true }
      | [] => { x with rxbuf := Config.freeSlaveByte x.wire.length, rxrdy := true }
    else { x with txrdy := true }
  else if x.ael then { x with stopf := true, busy := false, wire := x.wire ++ [.p] }
  else { x with tc := true }

/-- `PWrite(CTRL, v)` (20_memory R78). -/
def RefPer.writeCtrl (v : Word) (x : RefPer) : RefPer :=
  if v.getLsbD 17 then
    let y := { x with txrdy := false, rxrdy := false, tc := false, busy := true,
                      wire := x.wire ++ [.s, .a (wireAddressByte v)] }
    if x.present then
      RefPer.advance { y with rem := v.extractLsb' 8 8, dirl := v.getLsbD 16, ael := v.getLsbD 19 }
    else y
  else x

/-- `PWrite(TXDR, v)` (20_memory R80). -/
def RefPer.writeTxdr (v : Word) (x : RefPer) : RefPer :=
  if x.txrdy then
    RefPer.advance { x with txrdy := false, rem := x.rem - 1, wire := x.wire ++ [.d (v.setWidth 8)] }
  else x

/-- The side effect of `PRead(RXDR)` (20_memory R81). -/
def RefPer.afterRxdr (x : RefPer) : RefPer :=
  if x.rxrdy then RefPer.advance { x with rxrdy := false, rem := x.rem - 1, wire := x.wire ++ [.d x.rxbuf] } else x

/-- `SetStop()` (20_memory R82). -/
def RefPer.stop (x : RefPer) : RefPer :=
  { x with txrdy := false, rxrdy := false, tc := false, stopf := true, busy := false, wire := x.wire ++ [.p] }

/-- `PWrite(CLEAR, v)` (20_memory R83). -/
def RefPer.writeClear (v : Word) (x : RefPer) : RefPer := if v.getLsbD 4 then { x with stopf := false } else x

/-- What the reference peripheral does at an event of SEQ. -/
def RefPer.observe (e : Event) (x : RefPer) : RefPer :=
  match e with
  | .pWr .ctrl v => x.writeCtrl v
  | .pWr .txdr v => x.writeTxdr v
  | .pWr .clear v => x.writeClear v
  | .pRd .rxdr _ => x.afterRxdr
  | .pStop => x.stop
  | _ => x

/-- `REF_TICKS_PER_MS` (20_memory R85). -/
def refTicksPerMs : Nat := 1000

/-- The reference environment: the peripheral, the echo pulse, the start values drawn at `INIT_CLOCK`, and HOST's program. -/
structure RefEnv where
  per : RefPer
  /-- `RISE`; none is no echo -/
  rise : Option Nat
  /-- `WIDTH` -/
  width : Nat
  /-- Ticks since SEQ's first Phase A sample of the current `MEASURE`, none before it (20_memory R85 (c)). -/
  echoTicks : Option Nat
  /-- Ticks since the millisecond timer was armed (20_memory R85 (b)). -/
  msTicks : Nat
  /-- The draw `INIT_CLOCK` takes. -/
  clockDraw : Draw
  /-- The descriptors HOST issues, each when SEQ is idle (95_test_vectors §3). -/
  program : List Desc
  deriving DecidableEq, Repr

/-- The echo level the reference pulse shows at the next sample (20_memory R85 (c)). -/
def RefEnv.echo (e : RefEnv) : Bool :=
  match e.rise with
  | none => false
  | some r => r ≤ e.echoTicks.getD 0 && e.echoTicks.getD 0 < r + e.width

/-- The draw the reference environment supplies for the next SEQ step. -/
def RefEnv.nextDraw (s : State) (e : RefEnv) : Draw :=
  match s.phase with
  | .ckInit => e.clockDraw
  | .i2RxRead => { word := e.per.rxbuf.setWidth 32, bit := e.echo }
  | _ => { word := e.per.statusWord, bit := e.echo }

/-- The agent the reference schedule lets move next (20_memory R85 (a), (b); HOST as in 95_test_vectors §3). -/
def RefEnv.nextMove (s : State) (e : RefEnv) : Move :=
  match s.phase with
  | .idle =>
      match e.program with
      | d :: _ => .hostIssue d
      | [] => .seq
  | .duWait => if s.clk.uif then .seq else .tick
  | .dmWait =>
      if s.mst.done then .seq else if s.clk.run && e.msTicks < refTicksPerMs then .tick else .msExpire
  | _ => .seq

/-- What the reference environment does at an event. -/
def RefEnv.observe (e : RefEnv) (ev : Event) : RefEnv :=
  match ev with
  | .issue _ => { e with program := e.program.tail, echoTicks := none }
  | .echoRd _ => { e with echoTicks := some (e.echoTicks.getD 0) }
  | .tick => { e with echoTicks := e.echoTicks.map (· + 1), msTicks := e.msTicks + 1 }
  | .msArm => { e with msTicks := 0 }
  | _ => { e with per := e.per.observe ev }

/-- The state in which the reference environment's choices are the only pending ones. -/
def RefEnv.feed (e : RefEnv) (s : State) : State :=
  { s with env.moves := [e.nextMove s], env.draws := [e.nextDraw s] }

/-- One step of the machine in the reference environment: a step of the machine itself, with the reference's choices. -/
def RefEnv.step (e : RefEnv) (s : State) : Option (RefEnv × State) :=
  match Sys2Proof.Machine.step (e.feed s) with
  | .next t => some ((t.hist.drop s.hist.length).foldl RefEnv.observe e, t)
  | .fault _ => none
  | .refused _ => none

/-- `n` steps in the reference environment. -/
def RefEnv.run (n : Nat) (e : RefEnv) (s : State) : Option (RefEnv × State) :=
  match n with
  | 0 => some (e, s)
  | k + 1 =>
      match e.step s with
      | some (e', s') => RefEnv.run k e' s'
      | none => none

end Sys2Proof.Machine
end

