-- ==== Sys2Proof/Safety.lean ====
section
/-! DEFINITION. What counts as a safe state and a safe run of OD-SEQ, in the terms statements use: clean entry and the end of a
run (70_reset R243, 60_exceptions R227), holds (00_scope R10), fairness (60_exceptions R222), the reads of one wait step
(41_i2c R140), the events of each command's rule, and the invariant of the machine. -/

namespace Sys2Proof.Machine

/-! ### Events -/

/-- An event of SEQ's own: an external access or a completion (10_state R41). -/
def Event.ofSeq : Event → Bool
  | .issue _ => false
  | .tick => false
  | .msExpire => false
  | .fault _ => false
  | _ => true

/-- A step of SEQ with an external access, as 70_reset R261 counts them. -/
def Event.isAccess : Event → Bool
  | .issue _ => false
  | .tick => false
  | .msExpire => false
  | .fault _ => false
  | .complete _ => false
  | _ => true

/-- A completion. -/
def Event.isComplete : Event → Bool
  | .complete _ => true
  | _ => false

/-- The descriptors issued, in order. -/
def issuedOf (h : List Event) : List Desc :=
  h.filterMap (fun e => match e with
    | .issue d => some d
    | _ => none)

/-- The status of the last completion in a history. -/
def lastStatus (h : List Event) : Option Code :=
  h.foldl (fun acc e => match e with
    | .complete c => some c
    | _ => acc) none

/-- The reads of `STATUS` one wait makes: the words `vs`, in order. -/
def statusReads (vs : List Word) : List Event := vs.map (Event.pRd .status)

/-- `vs` are the words of a wait that succeeds: only the last one meets `cond` (41_i2c R140). -/
def Wait.passes (w : Wait) (vs : List Word) : Prop :=
  ∃ us v, vs = us ++ [v] ∧ (∀ u ∈ us, w.holds u = false) ∧ w.holds v = true

/-- SEQ's own events of a history, in order. -/
def seqEvents (h : List Event) : List Event := h.filter Event.ofSeq

/-- How many ticks a history holds. -/
def tickCount (h : List Event) : Nat := h.count .tick

/-- How many expiries a history holds. -/
def expiryCount (h : List Event) : Nat := h.count .msExpire

/-- How many STOPs a history holds. -/
def stopCount (h : List Event) : Nat := h.count .pStop

/-- How many `STATUS` reads a history holds: the polls. -/
def pollCount (h : List Event) : Nat := h.countP (fun e => match e with
  | .pRd .status _ => true
  | _ => false)

/-- How many `TXDR` writes a history holds. -/
def txCount (h : List Event) : Nat := h.countP (fun e => match e with
  | .pWr .txdr _ => true
  | _ => false)

/-- SEQ's events of the `DELAY_US` sub-procedure with `DREM = n` (40_clock R123). -/
def delayUsEvents (n : Nat) : List Event :=
  if n = 0 then [] else .uifClr :: (List.replicate n [Event.uifRd, Event.uifClr]).flatten

/-- SEQ's events of the `DELAY_MS` sub-procedure with `MREM = n` (40_clock R125). -/
def delayMsEvents (n : Nat) : List Event := (List.replicate n [Event.msArm, Event.msDoneRd]).flatten

/-- SEQ's events of `TRIGGER_PULSE` (42_ranger R182). -/
def triggerEvents : List Event :=
  [.trigWr false] ++ delayUsEvents 10 ++ [.trigWr true] ++ delayUsEvents 10 ++ [.trigWr false]

/-- SEQ's events of `n` loop iterations of READ_ECHO at echo level `l`: a sample and a one-tick delay (42_ranger R183). -/
def echoLoopEvents (l : Bool) (n : Nat) : List Event := (List.replicate n (Event.echoRd l :: delayUsEvents 1)).flatten

/-- SEQ's events of the transmit loop from buffer address `a` on, with the words `vs` of each byte's wait (41_i2c R147). -/
def txLoopEvents (m : Memory) (a : Word) (vs : List (List Word)) : List Event :=
  match vs with
  | [] => []
  | v :: rest =>
      statusReads v ++ [.mRd a (Memory.read m a.toNat), .pWr .txdr ((Memory.read m a.toNat).setWidth 32)]
        ++ txLoopEvents m (a + 1) rest

/-- SEQ's events of the receive loop from buffer address `a` on: the words of each byte's wait, and the `RXDR` word
(41_i2c R150). -/
def rxLoopEvents (a : Word) (vs : List (List Word × Word)) : List Event :=
  match vs with
  | [] => []
  | (v, x) :: rest => statusReads v ++ [.pRd .rxdr x, .mWr a (x.setWidth 8)] ++ rxLoopEvents (a + 1) rest

/-- Memory after the writes of a history, in its order (20_memory R73). -/
def replayWrites (m : Memory) (h : List Event) : Memory :=
  h.foldl (fun acc e => match e with
    | .mWr a v => Memory.write acc a.toNat v
    | _ => acc) m

/-! ### Launch and end of a run -/

/-- Command `i` was issued and SEQ is about to decode it. -/
def State.Starts (i : Instr) (s : State) : Prop :=
  s.phase = .decode ∧ s.cmd = Cmd.ofDesc s.cmd.desc ∧ decode s.cmd.desc = .ok i

/-- `k` steps of the machine take `s` to `t` and append `h` to `HIST`, and HOST issues nothing meanwhile: whatever `h` tells of
SEQ is of the command in progress at `s`. The other agents' steps fall anywhere. -/
def RunOf (k : Nat) (s t : State) (h : List Event) : Prop :=
  Sys2Proof.core.run k s = .next t ∧ t.hist = s.hist ++ h ∧ ∀ d, Event.issue d ∉ h

/-- The outcome with its next state changed by `f`; a stop stays. -/
def mapNext (f : State → State) (r : Result) : Result :=
  match r with
  | .next t => .next (f t)
  | .fault e => .fault e
  | .refused e => .refused e

/-- `n` turns of SEQ in a row. -/
def State.seqRun (n : Nat) (s : State) : Result :=
  match n with
  | 0 => .next s
  | k + 1 =>
      match s.seqStep with
      | .next t => State.seqRun k t
      | .fault f => .fault f
      | .refused r => .refused r

/-- The clean-entry predicate (70_reset R243), less the platform's boot requirements, which are no state of OD-SEQ. -/
def State.CleanEntry (s : State) : Prop := s.faults.isEmpty = true ∧ s.busy = false ∧ s.mst.armed = false

/-- The end of a run over the descriptors `ds` (60_exceptions R227). -/
def State.Ended (ds : List Desc) (s : State) : Prop := issuedOf s.hist = ds ∧ s.busy = false ∧ s.faults.isEmpty = true

/-- SEQ holds: it waits for a flag that is not set (00_scope R10). -/
def State.Holds (s : State) : Prop := (s.phase = .duWait ∧ s.clk.uif = false) ∨ (s.phase = .dmWait ∧ s.mst.done = false)

/-- `s` with the environment's choices `e`. -/
def State.under (e : Env) (s : State) : State := { s with env := e }

/-- An infinite run: at each step the environment makes whatever choices `e` says (00_scope R6, R13). -/
def IsRun (f : Nat → State) (e : Nat → Env) : Prop := ∀ n, step ((f n).under (e n)) = .next (f (n + 1))

/-- The fairness of the timers (60_exceptions R222), a premise of claims that a delay ends: while the counter runs it ticks again,
while the timer is armed it expires. Log 18. -/
def Fair (f : Nat → State) (e : Nat → Env) : Prop :=
  (∀ n, (f n).clk.run = true → ∃ m, n ≤ m ∧ ((f m).under (e m)).move = .tick) ∧
  (∀ n, (f n).mst.armed = true → ∃ m, n ≤ m ∧ ((f m).under (e m)).move = .msExpire)

/-- SEQ gets turns for ever. -/
def SeqGetsTurns (f : Nat → State) (e : Nat → Env) : Prop := ∀ n, ∃ m, n ≤ m ∧ ((f m).under (e m)).move = .seq

/-! ### The phases of each command (10_state R21) -/

/-- The phases of the abort (41_i2c R142). -/
def Phase.isAbort (p : Phase) : Bool := p == .i2AbStop || p == .i2AbPoll || p == .i2AbClear

/-- The phases of `DELAY_US` (40_clock R123). -/
def Phase.isDelayUs (p : Phase) : Bool := p == .duEntry || p == .duWait || p == .duClear

/-- The phases of `DELAY_MS` (40_clock R125). -/
def Phase.isDelayMs (p : Phase) : Bool := p == .dmArm || p == .dmWait

/-- The I2C phases all three commands use. -/
def Phase.isI2cCommon (p : Phase) : Bool :=
  p == .i2IdlePoll || p == .i2Start || p == .i2TxPoll || p == .i2TxWrite || p == .i2TcPoll || p == .i2StopfPoll
    || p == .i2StopfClear || p.isAbort

end Sys2Proof.Machine

namespace Sys2Proof

open Machine

/-- Is `p` a point of the command after its `DECODE` (10_state R21)? -/
def Instr.hasPhase (i : Instr) (p : Phase) : Bool :=
  match i with
  | .initClock => p == .ckInit
  | .clockNow => p == .ckNow
  | .delayUs _ => p.isDelayUs
  | .delayMs _ => p.isDelayMs
  | .i2cWriteByte _ _ => p.isI2cCommon || p == .i2Stop
  | .i2cWriteBytes _ _ _ => p.isI2cCommon || p == .i2Stop || p == .i2TxFetch
  | .i2cReadBytes _ _ _ _ => p.isI2cCommon || p == .i2Restart || p == .i2RxPoll || p == .i2RxRead || p == .i2RxStore
  | .measure _ =>
      p.isDelayUs || p.isDelayMs || p == .rgTrig0 || p == .rgTrig1 || p == .rgTrig2 || p == .rgASample || p == .rgBSample
        || p == .rgSettle

/-- Where a delay of the command may return, at a delay phase (40_clock R124, R126; 42_ranger R181 to R183). -/
def Instr.hasRet (i : Instr) (p : Phase) (r : Ret) : Bool :=
  match i with
  | .measure _ =>
      (!p.isDelayUs || r == .back .rgTrig1 || r == .back .rgTrig2 || r == .back .rgASample || r == .back .rgBSample)
        && (!p.isDelayMs || r == .back .rgSettle)
  | _ => (!p.isDelayUs && !p.isDelayMs) || r == .done

/-- Does the phase access or wait for byte `IDX` of a buffer of `count` bytes? -/
def Instr.needsByte (i : Instr) (p : Phase) : Option Byte :=
  match i with
  | .i2cWriteBytes _ count _ => if p == .i2TxPoll || p == .i2TxFetch || p == .i2TxWrite then some count else none
  | .i2cReadBytes _ _ count _ => if p == .i2RxPoll || p == .i2RxRead || p == .i2RxStore then some count else none
  | _ => none

/-- The phase a command enters when its wait `w` is over; none if it has no such wait (41_i2c R145, R147, R150). -/
def Instr.waitNext (i : Instr) (w : Wait) : Option Phase :=
  match i, w with
  | .i2cWriteByte _ _, .idle => some .i2Start
  | .i2cWriteByte _ _, .tx => some .i2TxWrite
  | .i2cWriteByte _ _, .tc => some .i2Stop
  | .i2cWriteByte _ _, .stopf => some .i2StopfClear
  | .i2cWriteBytes _ _ _, .idle => some .i2Start
  | .i2cWriteBytes _ _ _, .tx => some .i2TxFetch
  | .i2cWriteBytes _ _ _, .tc => some .i2Stop
  | .i2cWriteBytes _ _ _, .stopf => some .i2StopfClear
  | .i2cReadBytes _ _ _ _, .idle => some .i2Start
  | .i2cReadBytes _ _ _ _, .tx => some .i2TxWrite
  | .i2cReadBytes _ _ _ _, .rx => some .i2RxRead
  | .i2cReadBytes _ _ _ _, .tc => some .i2Restart
  | .i2cReadBytes _ _ _ _, .stopf => some .i2StopfClear
  | _, _ => none

/-- The three commands of the I2C family (00_scope R2). -/
def Instr.isI2c (i : Instr) : Bool :=
  match i with
  | .i2cWriteByte _ _ => true
  | .i2cWriteBytes _ _ _ => true
  | .i2cReadBytes _ _ _ _ => true
  | _ => false

/-- The wait steps of a command, the abort's apart (41_i2c R152). -/
def Instr.waitSteps (i : Instr) : Nat :=
  match i with
  | .i2cWriteByte _ _ => 4
  | .i2cWriteBytes _ count _ => count.toNat + 3
  | .i2cReadBytes _ _ count _ => count.toNat + 4
  | _ => 0

/-- The bytes a command writes to `TXDR` on its success path (41_i2c R145, R147, R150). -/
def Instr.txBytes (i : Instr) : Nat :=
  match i with
  | .i2cWriteByte _ _ => 1
  | .i2cWriteBytes _ count _ => count.toNat
  | .i2cReadBytes _ _ _ _ => 1
  | _ => 0

/-- The accesses of an I2C command that are no polls, on its success path (70_reset R261). -/
def Instr.plainAccesses (i : Instr) : Nat :=
  match i with
  | .i2cWriteByte _ _ => 4
  | .i2cWriteBytes _ count _ => 2 * count.toNat + 3
  | .i2cReadBytes _ _ count _ => 2 * count.toNat + 4
  | _ => 0

end Sys2Proof

namespace Sys2Proof.Machine

/-- Is READ_ECHO in progress: at a sample, or in a one-tick delay that returns to one (42_ranger R183)? -/
def State.inEcho (s : State) : Bool :=
  s.phase == .rgASample || s.phase == .rgBSample
    || (s.phase.isDelayUs && (s.work.ret == .back .rgASample || s.work.ret == .back .rgBSample))

/-- Is the settle of `MEASURE` in progress or over (42_ranger R181)? -/
def State.inSettle (s : State) : Bool := s.phase.isDelayMs || s.phase == .rgSettle

/-- What the phase in progress says of the registers of the command `i` (10_state R21, R22). -/
structure State.Point (i : Instr) (s : State) : Prop where
  phase : i.hasPhase s.phase = true
  ret : i.hasRet s.phase s.work.ret = true
  byte : ∀ c, i.needsByte s.phase = some c → s.work.idx.toNat < c.toNat
  echo : ∀ t, i = .measure t → s.inEcho = true → s.work.ecnt.toNat ≤ t.toNat
  settle : ∀ t, i = .measure t → s.inSettle = true → s.work.dur.toNat ≤ t.toNat

/-- `RES_STATUS` is the status of the last completion in `HIST`, and holds a value exactly when there is one (10_state R24). -/
def State.StatusIsLast (s : State) : Prop :=
  s.res.statusWritten = (lastStatus s.hist).isSome ∧ ∀ c, lastStatus s.hist = some c → s.res.status = c

/-- The invariant of the machine: every step keeps it, and it holds at reset. -/
structure State.Inv (s : State) : Prop where
  /-- The parameters are in range (00_scope R7). -/
  cfg : s.cfg.wellFormed = true
  /-- Memory is in canonical form. -/
  mem : Memory.wf s.mem = true
  /-- `CNT` is `CLK_W` bits wide (10_state R34). -/
  cnt : s.clk.cnt.toNat < 2 ^ s.cfg.clkW
  /-- `RES_STATUS` is legal: 7..15 are never written (10_state R24). -/
  status : Code.legal s.res.status = true
  /-- `EKIND` is a ranging status (60_exceptions R211). -/
  ekind : s.work.ekind = 0 ∨ s.work.ekind = 4 ∨ s.work.ekind = 5
  /-- An invalid measurement has the sentinel duration (42_ranger R183). -/
  sentinel : s.work.val = false → s.work.dur = 0
  /-- The measurement registers are legal (10_state R26). -/
  range : (s.res.rngValid = false → s.res.rngDuration = 0) ∧ s.res.rngDistance = distance s.res.rngDuration
  /-- The millisecond timer is armed only while SEQ waits for it, and then it is not done (10_state R37). -/
  armed : s.mst.armed = true → s.phase = .dmWait ∧ s.mst.done = false
  /-- A wait has polls left (41_i2c R140, R142). -/
  polls : s.phase.isPoll = true → s.work.polls < s.cfg.pollLimit
  /-- The latched fields are those of the latched descriptor (30_encoding R91). -/
  cmd : s.cmd = Cmd.ofDesc s.cmd.desc
  /-- A phase after `DECODE` is a point of the legal command that was issued (10_state R21). -/
  point : s.phase ≠ .idle → s.phase ≠ .decode → ∃ i, decode s.cmd.desc = .ok i ∧ s.Point i
  /-- An abort has an error and happens in `BOUNDED` mode only (41_i2c R142). -/
  abort : s.phase.isAbort = true → s.cfg.mode = .bounded ∧ (s.work.err = 2 ∨ s.work.err = 3)
  /-- After `CLOCK_REINIT` SEQ stays at `CK_INIT` (60_exceptions R212). -/
  reinit : s.faults.clockReinit = true → s.phase = .ckInit ∧ s.clk.run = true
  /-- A delay in progress has waits left (40_clock R123, R125). -/
  waits : (s.phase = .duWait ∨ s.phase = .duClear → s.work.drem ≠ 0) ∧ (s.phase = .dmWait → s.work.mrem ≠ 0)

end Sys2Proof.Machine
end

