-- ==== Sys2Proof/Certificates/Slice0/Obligations.lean ====
section
/-! DEFINITION. The statements for the provers: what the rules of spec/ say OD-SEQ does. A docstring cites the rules; one that
rests on the model's own choice names its log entry. -/

open Sys2Proof Sys2Proof.Machine

/-! ### The descriptor (30_encoding) -/

/-- Decoding the descriptor of any command gives that command: no operand bit is dropped (30_encoding R90, R92, R93). -/
def Obligations.DecodeEncode : Prop := ∀ i : Instr, decode (encode i) = .ok i

/-- Every legal descriptor is the one of its command: a command has one encoding (30_encoding R92, R93). -/
def Obligations.EncodeDecode : Prop := ∀ (d : Desc) (i : Instr), decode d = .ok i → encode i = d

/-- A descriptor decodes to a command of row `m` exactly when it has the row's bits under the row's mask, and no two rows match
one descriptor (30_encoding R93). -/
def Obligations.RowsSelect : Prop :=
  (∀ (d : Desc) (m : Mnemonic), (∃ i, decode d = .ok i ∧ i.mnemonic = m) ↔ d &&& m.maskWord = m.matchWord) ∧
  (∀ (d : Desc) (m n : Mnemonic), d &&& m.maskWord = m.matchWord → d &&& n.maskWord = n.matchWord → m = n)

/-- Words written out from the spec's encoding decode to their commands: one per command, the examples of 40_clock R121, R124,
R126, 41_i2c R145, R147, 42_ranger R181, and for I2C_READ_BYTES the fields of 30_encoding R90. -/
def Obligations.WordsDecode : Prop :=
  decode 0x0000000000000001 = .ok .initClock ∧
  decode 0x0000000000000002 = .ok .clockNow ∧
  decode 0x0000000A00000003 = .ok (.delayUs 10) ∧
  decode 0x000003E800000004 = .ok (.delayMs 1000) ∧
  decode 0x00000000000AE3C5 = .ok (.i2cWriteByte 0x3C 0xAE) ∧
  decode 0x20000000002003C6 = .ok (.i2cWriteBytes 0x3C 2 0x20000000) ∧
  decode 0x2000010000275687 = .ok (.i2cReadBytes 0x68 0x75 2 0x20000100) ∧
  decode 0x00061A8000000008 = .ok (.measure 400000)

/-- An assembler makes a command of a line exactly when every number fits its field, and the command has the line's numbers
(30_encoding R102). -/
def Obligations.AssembleFits : Prop :=
  (∀ l : AsmLine, l.assemble = none ↔
    match l with
    | .initClock => False
    | .clockNow => False
    | .delayUs n => n > 0xFFFFFFFF
    | .delayMs n => n > 0xFFFFFFFF
    | .i2cWriteByte addr byte => addr > 127 ∨ byte > 255
    | .i2cWriteBytes addr count buf => addr > 127 ∨ count > 255 ∨ buf > 0xFFFFFFFF
    | .i2cReadBytes addr reg count buf => addr > 127 ∨ reg > 255 ∨ count > 255 ∨ buf > 0xFFFFFFFF
    | .measure timeout => timeout > 0xFFFFFFFF) ∧
  (∀ (l : AsmLine) (i : Instr), l.assemble = some i →
    match l with
    | .initClock => encode i = 0x1
    | .clockNow => encode i = 0x2
    | .delayUs n => (encode i).toNat = 0x3 + n * 2 ^ 32
    | .delayMs n => (encode i).toNat = 0x4 + n * 2 ^ 32
    | .i2cWriteByte addr byte => (encode i).toNat = 0x5 + addr * 2 ^ 4 + byte * 2 ^ 12
    | .i2cWriteBytes addr count buf => (encode i).toNat = 0x6 + addr * 2 ^ 4 + count * 2 ^ 20 + buf * 2 ^ 32
    | .i2cReadBytes addr reg count buf =>
        (encode i).toNat = 0x7 + addr * 2 ^ 4 + reg * 2 ^ 12 + count * 2 ^ 20 + buf * 2 ^ 32
    | .measure timeout => (encode i).toNat = 0x8 + timeout * 2 ^ 32)

/-- An illegal descriptor: `OP` reserved, or a reserved bit set, or an unused field not zero; it completes at `DECODE` with
`ILLEGAL_COMMAND` and performs no access. The all-zero descriptor is illegal (30_encoding R94). -/
def Obligations.IllegalDescriptor : Prop :=
  (∀ d : Desc, (∀ m : Mnemonic, d &&& m.maskWord ≠ m.matchWord) ↔
    Desc.op d = 0 ∨ 9 ≤ (Desc.op d).toNat ∨ Desc.rsvA d ≠ 0 ∨ Desc.rsvB d ≠ 0 ∨
    ((Desc.op d = 1 ∨ Desc.op d = 2) ∧ (Desc.addr d ≠ 0 ∨ Desc.data d ≠ 0 ∨ Desc.count d ≠ 0 ∨ Desc.arg d ≠ 0)) ∨
    ((Desc.op d = 3 ∨ Desc.op d = 4 ∨ Desc.op d = 8) ∧ (Desc.addr d ≠ 0 ∨ Desc.data d ≠ 0 ∨ Desc.count d ≠ 0)) ∨
    (Desc.op d = 5 ∧ (Desc.count d ≠ 0 ∨ Desc.arg d ≠ 0)) ∨ (Desc.op d = 6 ∧ Desc.data d ≠ 0)) ∧
  (∀ s : State, s.phase = .decode → s.faults.clockReinit = false →
    (∀ m : Mnemonic, s.cmd.desc &&& m.maskWord ≠ m.matchWord) →
    s.seqStep = .next { s with phase := .idle, res.status := 6, res.statusWritten := true, hist := s.hist ++ [.complete 6] }) ∧
  (∀ m : Mnemonic, (0 : Desc) &&& m.maskWord ≠ m.matchWord)

/-- `DECODE` makes no access: it completes an illegal descriptor and enters the first phase of a legal one (30_encoding R104). -/
def Obligations.DecodeFirstPhase : Prop :=
  ∀ s : State, s.phase = .decode → s.faults.clockReinit = false →
    ((∀ m : Mnemonic, s.cmd.desc &&& m.maskWord ≠ m.matchWord) →
      s.seqStep = .next { s with phase := .idle, res.status := 6, res.statusWritten := true, hist := s.hist ++ [.complete 6] }) ∧
    (∀ i : Instr, decode s.cmd.desc = .ok i → s.seqStep = .next
      (match i with
      | .initClock => { s with phase := .ckInit }
      | .clockNow => { s with phase := .ckNow }
      | .delayUs n => { s with work.drem := n, work.ret := .done, phase := .duEntry }
      | .delayMs n => { s with work.mrem := n, work.ret := .done, phase := .dmArm }
      | .i2cWriteByte _ _ => { s with work.polls := 0, phase := .i2IdlePoll }
      | .i2cWriteBytes _ _ _ => { s with work.polls := 0, phase := .i2IdlePoll }
      | .i2cReadBytes _ _ _ _ => { s with work.polls := 0, phase := .i2IdlePoll }
      | .measure _ => { s with phase := .rgTrig0 }))

/-! ### A step of the machine -/

/-- When it is SEQ's turn, the step is exec of the decoded command: at `DECODE` of the command `C_DESC` decodes to, later of the
command `C_OP` selects, which is the same one. What the step adds around exec is that the move is taken. A descriptor placed for
the next step runs as its command (00_scope R10, 30_encoding R104, 10_state R21, logs 1, 3, 15, 17). -/
def Obligations.StepRunsDecoded : Prop :=
  (∀ (s : State) (i : Instr), s.move = .seq → s.faults.clockReinit = false → s.phase = .decode →
    decode s.cmd.desc = .ok i → step s = exec i s.dropMove) ∧
  (∀ (s : State) (i : Instr), s.move = .seq → s.faults.clockReinit = false → s.phase ≠ .idle → s.phase ≠ .decode →
    s.cmd = Cmd.ofDesc s.cmd.desc → decode s.cmd.desc = .ok i → step s = exec i s.dropMove) ∧
  (∀ (s : State) (n w : Nat) (i : Instr), decodeTableWord n w = some i →
    step (s.withFetchWord n w) = exec i { s with
      cmd := Cmd.ofDesc (BitVec.ofNat 64 (w % 2 ^ n)), phase := .decode, faults.clockReinit := false })

/-- HOST's moves (60_exceptions R224): an issue latches the fields when SEQ is idle and is `REENTRANT` when busy; host memory may
be written when idle only (a write while busy is refused, log 14); no move touches the peripheral, the pins or the timers. That a
write of host memory appends no event to `HIST` is the model's own, log 13. -/
def Obligations.HostMoves : Prop :=
  (∀ (s : State) (d : Desc), s.move = .hostIssue d → s.hostFaulted = false → s.phase = .idle →
    step s = .next { s.dropMove with
      hist := s.hist ++ [.issue d], phase := .decode,
      cmd := { desc := d, op := d.extractLsb' 0 4, addr := d.extractLsb' 4 7, data := d.extractLsb' 12 8,
               count := d.extractLsb' 20 8, arg := d.extractLsb' 32 32 } }) ∧
  (∀ (s : State) (d : Desc), s.move = .hostIssue d → s.hostFaulted = false → s.phase ≠ .idle →
    step s = .next { s.dropMove with faults.reentrant := some d, hist := s.hist ++ [.fault (.reentrant d)] }) ∧
  (∀ (s : State) (a : Word) (v : Byte), s.move = .hostStore a v → s.hostFaulted = false → s.phase = .idle →
    step s = .next { s.dropMove with mem := Memory.write s.mem a.toNat v }) ∧
  (∀ (s : State) (a : Word) (v : Byte), s.move = .hostStore a v → s.hostFaulted = false → s.phase ≠ .idle →
    step s = .refused (.hostStoreWhileBusy a)) ∧
  (∀ s t : State, step s = .next t → s.move ≠ .seq → s.move ≠ .tick → s.move ≠ .msExpire →
    t.per = s.per ∧ t.trig = s.trig ∧ t.clk = s.clk ∧ t.mst = s.mst)

/-- A HOST read returns the register's value at that step, `SEQ_BUSY` always; a result register that holds no value raises
`UNWRITTEN_READ`; while SEQ is busy the result registers keep the previous command's results (60_exceptions R226). That the
value is put into `hostData`, and that a read that returns one appends no event to `HIST`, is the model's choice, log 13. -/
def Obligations.HostReads : Prop :=
  (∀ (s : State) (r : Nat), s.move = .hostRead r → s.hostFaulted = false → r ≤ 5 →
    step s = .next
      (if r = 0 then { s.dropMove with hostData := if s.phase = .idle then 0 else 1 }
       else if r = 1 ∧ s.res.statusWritten = true then { s.dropMove with hostData := s.res.status.setWidth 32 }
       else if r = 2 ∧ s.res.valueWritten = true then { s.dropMove with hostData := s.res.value }
       else if r = 3 ∧ s.res.rngWritten = true then { s.dropMove with hostData := if s.res.rngValid then 1 else 0 }
       else if r = 4 ∧ s.res.rngWritten = true then { s.dropMove with hostData := s.res.rngDuration }
       else if r = 5 ∧ s.res.rngWritten = true then { s.dropMove with hostData := s.res.rngDistance }
       else { s.dropMove with faults.unwrittenRead := some r, hist := s.hist ++ [.fault (.unwrittenRead r)] })) ∧
  (∀ s t : State, step s = .next t → t.phase ≠ .idle → t.res = s.res)

/-- The moves HOST does not have are refused (10_state R23, R28; a refusal, log 14). -/
def Obligations.HostRefusals : Prop :=
  (∀ (s : State) (r : Nat), s.move = .hostRead r → s.hostFaulted = false → 6 ≤ r →
    step s = .refused (.hostNoSuchRegister r)) ∧
  (∀ (s : State) (r : Nat) (v : Word), s.move = .hostWrite r v → s.hostFaulted = false → r ≤ 5 →
    step s = .refused (.hostRegisterReadOnly r)) ∧
  (∀ s : State, s.move = .hostReadCmd → s.hostFaulted = false → step s = .refused .hostCommandPortWriteOnly)

/-- CLK's tick: enabled exactly when `RUN = 1`, it advances `CNT` modulo 2^`CLK_W`, sets `UIF` and appends `Tick`
(60_exceptions R220); while `RUN = 0` no tick happens. -/
def Obligations.TickStep : Prop :=
  ∀ s : State, s.move = .tick →
    (s.clk.run = true → step s = .next { s.dropMove with
      clk.cnt := BitVec.ofNat 32 ((s.clk.cnt.toNat + 1) % 2 ^ s.cfg.clkW), clk.uif := true, hist := s.hist ++ [.tick] }) ∧
    (s.clk.run = false → ∀ t, step s = .next t → t.hist = s.hist ∧ t.clk = s.clk)

/-- MST's expiry: enabled exactly when `MS_ARMED = 1`, it clears `MS_ARMED`, sets `MS_DONE` and appends `MsExpire`
(60_exceptions R221); while `MS_ARMED = 0` no expiry happens. -/
def Obligations.ExpiryStep : Prop :=
  ∀ s : State, s.move = .msExpire →
    (s.mst.armed = true → step s = .next { s.dropMove with
      mst.armed := false, mst.done := true, hist := s.hist ++ [.msExpire] }) ∧
    (s.mst.armed = false → ∀ t, step s = .next t → t.hist = s.hist ∧ t.mst = s.mst)

/-! ### The clock family (40_clock) -/

/-- `INIT_CLOCK`: it starts the counter at a drawn value and completes with OK, or raises `CLOCK_REINIT` while the counter runs;
after it a tick is enabled (40_clock R121). -/
def Obligations.InitClock : Prop :=
  (∀ s : State, s.phase = .decode → exec .initClock s = .next { s with phase := .ckInit }) ∧
  (∀ s : State, s.phase = .ckInit → s.clk.run = false →
    exec .initClock s = .next { s.dropDraw with
      clk := { cnt := BitVec.ofNat 32 (s.draw.word.toNat % 2 ^ s.cfg.clkW), uif := s.draw.bit, run := true },
      hist := s.hist ++ [.clkInit, .complete 0], res.status := 0, res.statusWritten := true, phase := .idle }) ∧
  (∀ s : State, s.phase = .ckInit → s.clk.run = true →
    exec .initClock s = .next { s with faults.clockReinit := true, hist := s.hist ++ [.fault .clockReinit] }) ∧
  (∀ s t : State, s.phase = .ckInit → s.clk.run = false → exec .initClock s = .next t → t.clk.run = true)

/-- `CLOCK_NOW`: it writes `RES_VALUE` with `CNT` and completes with OK (40_clock R122). -/
def Obligations.ClockNow : Prop :=
  (∀ s : State, s.phase = .decode → exec .clockNow s = .next { s with phase := .ckNow }) ∧
  (∀ s : State, s.phase = .ckNow →
    exec .clockNow s = .next { s with
      res.value := s.clk.cnt, res.valueWritten := true, res.status := 0, res.statusWritten := true,
      hist := s.hist ++ [.clkRd s.clk.cnt, .complete 0], phase := .idle }) ∧
  (∀ s t : State, s.phase = .ckNow → s.clk.cnt.toNat < 2 ^ s.cfg.clkW → exec .clockNow s = .next t →
    t.res.value.toNat < 2 ^ s.cfg.clkW)

/-- `DELAY_US n`, phase by phase (40_clock R123, R124): the entry clears a stale flag, each wait holds until `UIF` is set, each
observed flag is cleared and counted, and the last one completes with OK. A hold lets the turn pass (log 12). -/
def Obligations.DelayUsSteps : Prop :=
  ∀ (n : Word) (s : State),
    (s.phase = .decode → exec (.delayUs n) s = .next { s with work.drem := n, work.ret := .done, phase := .duEntry }) ∧
    (s.phase = .duEntry → s.work.drem = 0 → s.work.ret = .done →
      exec (.delayUs n) s = .next { s with
        res.status := 0, res.statusWritten := true, hist := s.hist ++ [.complete 0], phase := .idle }) ∧
    (s.phase = .duEntry → s.work.drem ≠ 0 →
      exec (.delayUs n) s = .next { s with clk.uif := false, hist := s.hist ++ [.uifClr], phase := .duWait }) ∧
    (s.phase = .duWait → s.clk.uif = true →
      exec (.delayUs n) s = .next { s with hist := s.hist ++ [.uifRd], phase := .duClear }) ∧
    (s.phase = .duWait → s.clk.uif = false → exec (.delayUs n) s = .next s) ∧
    (s.phase = .duClear → s.work.drem ≠ 1 →
      exec (.delayUs n) s = .next { s with
        clk.uif := false, work.drem := s.work.drem - 1, hist := s.hist ++ [.uifClr], phase := .duWait }) ∧
    (s.phase = .duClear → s.work.drem = 1 → s.work.ret = .done →
      exec (.delayUs n) s = .next { s with
        clk.uif := false, work.drem := 0, res.status := 0, res.statusWritten := true,
        hist := s.hist ++ [.uifClr, .complete 0], phase := .idle })

/-- `DELAY_MS n`, phase by phase (40_clock R125, R126): it arms the timer once per millisecond, holds until the expiry, and
completes with OK when none is left. A hold lets the turn pass (log 12). -/
def Obligations.DelayMsSteps : Prop :=
  ∀ (n : Word) (s : State),
    (s.phase = .decode → exec (.delayMs n) s = .next { s with work.mrem := n, work.ret := .done, phase := .dmArm }) ∧
    (s.phase = .dmArm → s.work.mrem = 0 → s.work.ret = .done →
      exec (.delayMs n) s = .next { s with
        res.status := 0, res.statusWritten := true, hist := s.hist ++ [.complete 0], phase := .idle }) ∧
    (s.phase = .dmArm → s.work.mrem ≠ 0 →
      exec (.delayMs n) s = .next { s with
        mst.armed := true, mst.done := false, hist := s.hist ++ [.msArm], phase := .dmWait }) ∧
    (s.phase = .dmWait → s.mst.done = true →
      exec (.delayMs n) s = .next { s with
        work.mrem := s.work.mrem - 1, hist := s.hist ++ [.msDoneRd], phase := .dmArm }) ∧
    (s.phase = .dmWait → s.mst.done = false → exec (.delayMs n) s = .next s)

/-- Where a tick falls into every hold, `DELAY_US n` completes with OK and `CNT` advances by exactly `n`; where an expiry falls into
every hold, `DELAY_MS n` completes with OK after `n` armings and needs no running counter (40_clock R123 to R126, 20_memory R85). -/
def Obligations.DelaysOnSchedule : Prop :=
  (∀ (n : Word) (s : State) (rest : List Move), s.Starts (.delayUs n) → s.faults.clockReinit = false → s.clk.run = true →
    s.cfg.wellFormed = true → s.clk.cnt.toNat < 2 ^ s.cfg.clkW →
    s.env.moves = [.seq, .seq] ++ (List.replicate n.toNat [Move.tick, .seq, .seq]).flatten ++ rest →
    ∃ t, Sys2Proof.core.run (2 + 3 * n.toNat) s = .next t ∧ t.phase = .idle ∧ t.env.moves = rest ∧
      t.res = { s.res with status := 0, statusWritten := true } ∧ t.mem = s.mem ∧
      t.clk.cnt.toNat = (s.clk.cnt.toNat + n.toNat) % 2 ^ s.cfg.clkW ∧
      seqEvents (t.hist.drop s.hist.length) = delayUsEvents n.toNat ++ [.complete 0]) ∧
  (∀ (n : Word) (s : State) (rest : List Move), s.Starts (.delayMs n) → s.faults.clockReinit = false →
    s.env.moves = [.seq] ++ (List.replicate n.toNat [Move.seq, .msExpire, .seq]).flatten ++ [.seq] ++ rest →
    ∃ t, Sys2Proof.core.run (2 + 3 * n.toNat) s = .next t ∧ t.phase = .idle ∧ t.env.moves = rest ∧
      t.res = { s.res with status := 0, statusWritten := true } ∧ t.mem = s.mem ∧ t.clk = s.clk ∧
      t.hist = s.hist ++ (List.replicate n.toNat [Event.msArm, .msExpire, .msDoneRd]).flatten ++ [.complete 0])

/-- However the agents interleave, a completed `DELAY_US n` made exactly the accesses of 40_clock R123, and at least `n` ticks
fell between the flag clear of its entry and its end. -/
def Obligations.DelayUsTicks : Prop :=
  ∀ (n : Word) (k : Nat) (s t : State) (h : List Event) (c : Code), s.Starts (.delayUs n) → RunOf k s t h → .complete c ∈ h →
    c = 0 ∧ seqEvents h = delayUsEvents n.toNat ++ [.complete 0] ∧
    (n ≠ 0 → ∃ a b d, h = a ++ [.uifClr] ++ b ++ [.complete 0] ++ d ∧ Event.uifClr ∉ a ∧ n.toNat ≤ tickCount b)

/-- However the agents interleave, a completed `DELAY_MS n` made exactly the accesses of 40_clock R125, and exactly `n` expiries
fell. -/
def Obligations.DelayMsExpiries : Prop :=
  ∀ (n : Word) (k : Nat) (s t : State) (h : List Event) (c : Code), s.Starts (.delayMs n) → s.mst.armed = false →
    RunOf k s t h → .complete c ∈ h →
    c = 0 ∧ seqEvents h = delayMsEvents n.toNat ++ [.complete 0] ∧ expiryCount h = n.toNat

/-- While `RUN = 0` a microsecond delay waits at `DU_WAIT` for good, `DELAY_US`'s own and `MEASURE`'s: no tick comes, nothing completes
and no result register changes. Issued so, `DELAY_US n` with `n > 0` makes no access but the entry's flag clear, and `MEASURE` none
but its first `TrigWr(0)` and that clear (40_clock R123, R124, 42_ranger R181, 60_exceptions R213). -/
def Obligations.DelayUsStuck : Prop :=
  (∀ (n : Word) (k : Nat) (s t : State) (h : List Event), s.phase = .duWait → s.clk.uif = false → s.clk.run = false →
    (s.cmd.instr = some (.delayUs n) ∨ s.cmd.instr = some (.measure n)) → RunOf k s t h →
    t.phase = .duWait ∧ seqEvents h = [] ∧ t.clk = s.clk ∧ t.res = s.res) ∧
  (∀ (n : Word) (k : Nat) (s t : State) (h : List Event), n ≠ 0 → s.Starts (.delayUs n) → s.clk.run = false → RunOf k s t h →
    t.phase ≠ .idle ∧ seqEvents h <+: [.uifClr] ∧ t.res = s.res) ∧
  (∀ (timeout : Word) (k : Nat) (s t : State) (h : List Event), s.Starts (.measure timeout) → s.clk.run = false → RunOf k s t h →
    t.phase ≠ .idle ∧ seqEvents h <+: [.trigWr false, .uifClr] ∧ t.res = s.res)

/-- Under the fairness of the timers, a run in which SEQ gets turns for ever ends every `DELAY_US` with a running counter and every
`DELAY_MS` with OK, and every `MEASURE` with a running counter with one of its three statuses and the measurement registers written
(60_exceptions R222, 40_clock R123, R125, 42_ranger R181; log 18). -/
def Obligations.DelaysEnd : Prop :=
  ∀ (f : Nat → State) (e : Nat → Env), IsRun f e → Fair f e → SeqGetsTurns f e → (f 0).faults.clockReinit = false →
    (∀ n : Word, ((f 0).Starts (.delayUs n) ∧ (f 0).clk.run = true) ∨ (f 0).Starts (.delayMs n) →
      ∃ m, (f m).phase = .idle ∧ (f m).res.status = 0 ∧ Event.complete 0 ∈ (f m).hist.drop (f 0).hist.length) ∧
    (∀ timeout : Word, (f 0).Starts (.measure timeout) → (f 0).clk.run = true →
      ∃ m c, (f m).phase = .idle ∧ (f m).res.status = c ∧ (c = 0 ∨ c = 4 ∨ c = 5) ∧ (f m).res.rngWritten = true ∧
        Event.complete c ∈ (f m).hist.drop (f 0).hist.length)

/-- The elapsed ticks between two counter readings, after `n` ticks, are `n` modulo 2^`CLK_W`, so `n` itself when the counter did
not wrap past its start (40_clock R127). -/
def Obligations.ElapsedTicks : Prop :=
  ∀ (s : State) (n : Nat), s.cfg.wellFormed = true → s.clk.cnt.toNat < 2 ^ s.cfg.clkW →
    (elapsed s.cfg s.clk.cnt (Nat.iterate State.tick n s).clk.cnt).toNat = n % 2 ^ s.cfg.clkW

/-! ### The I2C family (41_i2c) -/

/-- The `CTRL` word: `SADD`, `NBYTES`, `RD_WRN`, `START`, `STOP` 0, `AUTOEND`, and zeros; the three forms used, and every whole-word
write of `CTRL` that SEQ makes is one of them, with the command's own address (30_encoding R97). -/
def Obligations.CtrlWord : Prop :=
  (∀ (a : Addr7) (n : Byte) (r e : Bool),
    (ctrlWord a n r e).extractLsb' 0 1 = 0 ∧ (ctrlWord a n r e).extractLsb' 1 7 = a ∧ (ctrlWord a n r e).extractLsb' 8 8 = n ∧
    (ctrlWord a n r e).getLsbD 16 = r ∧ (ctrlWord a n r e).getLsbD 17 = true ∧ (ctrlWord a n r e).getLsbD 18 = false ∧
    (ctrlWord a n r e).getLsbD 19 = e ∧ (ctrlWord a n r e).extractLsb' 20 12 = 0) ∧
  (∀ (a : Addr7) (n : Byte),
    ctrlWord a n false false = 0x00020000#32 ||| n.setWidth 32 <<< 8 ||| a.setWidth 32 <<< 1 ∧
    ctrlWord a n true true = 0x000B0000#32 ||| n.setWidth 32 <<< 8 ||| a.setWidth 32 <<< 1) ∧
  ctrlWord 0x3C 1 false false = 0x00020178 ∧ ctrlWord 0x68 1 false false = 0x000201D0 ∧ ctrlWord 0x68 2 true true = 0x000B02D0 ∧
  (∀ (i : Instr) (s t : State) (es : List Event) (v : Word), exec i s = .next t → t.hist = s.hist ++ es → .pWr .ctrl v ∈ es →
    match i with
    | .i2cWriteByte addr _ => v = ctrlWord addr 1 false false
    | .i2cWriteBytes addr count _ => v = ctrlWord addr count false false
    | .i2cReadBytes addr _ count _ =>
        (s.phase = .i2Start ∧ v = ctrlWord addr 1 false false) ∨ (s.phase = .i2Restart ∧ v = ctrlWord addr count true true)
    | _ => False)

/-- The peripheral accesses: a read returns the draw and appends `PRd`, a write stores the whole word and appends `PWr`, `SetStop()`
sets bit 18 of `CTRL` alone and appends `PStop`. Whatever the state, a SEQ step reads `STATUS` and `RXDR` only, and writes `CTRL`,
`CLEAR` with 0x10, `TXDR` with a zero-extended byte, and nothing else (20_memory R63, 30_encoding R99, R100, R101). That the field of a
register holds the word last read or written there is the model's choice, log 8: 20_memory R67 gives a read
of `STATUS` no side effect. -/
def Obligations.PeripheralAccesses : Prop :=
  (∀ (r : PReg) (s : State), s.pread r = { s.dropDraw with
    per := s.per.set r s.draw.word, hist := s.hist ++ [.pRd r s.draw.word] }) ∧
  (∀ (r : PReg) (v : Word) (s : State), s.pwrite r v = { s with per := s.per.set r v, hist := s.hist ++ [.pWr r v] }) ∧
  (∀ s : State, s.setStop = { s with per.ctrl := s.per.ctrl ||| 0x00040000, hist := s.hist ++ [.pStop] }) ∧
  (∀ (s : State) (j : Nat), j < 32 → s.setStop.per.ctrl.getLsbD j = (j == 18 || s.per.ctrl.getLsbD j)) ∧
  ∀ (i : Instr) (s t : State) (es : List Event), exec i s = .next t → t.hist = s.hist ++ es →
    (∀ r v, .pRd r v ∈ es → r = .status ∨ r = .rxdr) ∧
    (∀ r v, .pWr r v ∈ es →
      (r = .clear ∧ v = 0x00000010) ∨ (r = .txdr ∧ ∃ b : Byte, v = b.setWidth 32) ∨ r = .ctrl) ∧
    (i.isI2c = false → ∀ r v, .pRd r v ∉ es ∧ .pWr r v ∉ es ∧ .pStop ∉ es)

/-- The wait step (41_i2c R140): one read of `STATUS`; on its condition the next phase; else it spins (`BASELINE`), or polls on, or
at the `POLL_LIMIT`-th poll fails: WaitIdle completes with its error, every other wait aborts with its error. Entering a poll
phase from another phase clears `POLLS`. That the field `per.status` takes the word read is the model's choice, log 8. -/
def Obligations.WaitStep : Prop :=
  (∀ (i : Instr) (w : Wait) (n : Phase) (s : State), i.waitNext w = some n → s.phase = w.phase →
    (w.holds s.draw.word = true →
      exec i s = .next { s.dropDraw with
        per.status := s.draw.word, hist := s.hist ++ [.pRd .status s.draw.word], phase := n }) ∧
    (w.holds s.draw.word = false → s.cfg.mode = .baseline →
      exec i s = .next { s.dropDraw with per.status := s.draw.word, hist := s.hist ++ [.pRd .status s.draw.word] }) ∧
    (w.holds s.draw.word = false → s.cfg.mode = .bounded → s.work.polls + 1 ≠ s.cfg.pollLimit →
      exec i s = .next { s.dropDraw with
        per.status := s.draw.word, hist := s.hist ++ [.pRd .status s.draw.word], work.polls := s.work.polls + 1 }) ∧
    (w.holds s.draw.word = false → s.cfg.mode = .bounded → s.work.polls + 1 = s.cfg.pollLimit →
      exec i s = .next (if w = .idle then { s.dropDraw with
          per.status := s.draw.word, hist := s.hist ++ [.pRd .status s.draw.word, .complete 1],
          work.polls := s.work.polls + 1, res.status := 1, res.statusWritten := true, phase := .idle }
        else { s.dropDraw with
          per.status := s.draw.word, hist := s.hist ++ [.pRd .status s.draw.word], work.polls := s.work.polls + 1,
          work.err := if w = .tx ∨ w = .rx then 2 else 3, phase := .i2AbStop }))) ∧
  (∀ v : Word, Wait.holds .idle v = !v.getLsbD 0 ∧ Wait.holds .tx v = v.getLsbD 1 ∧ Wait.holds .rx v = v.getLsbD 2 ∧
    Wait.holds .tc v = v.getLsbD 3 ∧ Wait.holds .stopf v = v.getLsbD 4) ∧
  (∀ (i : Instr) (s t : State), exec i s = .next t → t.phase.isPoll = true → t.phase ≠ s.phase → t.work.polls = 0)

/-- The abort (41_i2c R142): it reissues STOP, polls `STOPF` at most `POLL_LIMIT` times, clears the flag, and completes with the
error that started it, whether or not the STOP was seen. That `per.status` takes the word read is the model's choice, log 8. -/
def Obligations.AbortSteps : Prop :=
  ∀ (i : Instr) (s : State), i.isI2c = true →
    (s.phase = .i2AbStop → exec i s = .next { s with
      per.ctrl := s.per.ctrl ||| 0x00040000, hist := s.hist ++ [.pStop], work.polls := 0, phase := .i2AbPoll }) ∧
    (s.phase = .i2AbPoll → s.draw.word.getLsbD 4 = true → exec i s = .next { s.dropDraw with
      per.status := s.draw.word, hist := s.hist ++ [.pRd .status s.draw.word], phase := .i2AbClear }) ∧
    (s.phase = .i2AbPoll → s.draw.word.getLsbD 4 = false → exec i s = .next { s.dropDraw with
      per.status := s.draw.word, hist := s.hist ++ [.pRd .status s.draw.word], work.polls := s.work.polls + 1,
      phase := if s.work.polls + 1 = s.cfg.pollLimit then .i2AbClear else .i2AbPoll }) ∧
    (s.phase = .i2AbClear → exec i s = .next { s with
      per.clear := 0x00000010, hist := s.hist ++ [.pWr .clear 0x00000010, .complete s.work.err],
      res.status := s.work.err, res.statusWritten := true, phase := .idle })

/-- `I2C_WRITE_BYTE`, the phases that are no waits: START for one byte, the `TXDR` write, STOP, the clear and OK (41_i2c R145). -/
def Obligations.WriteByteSteps : Prop :=
  ∀ (addr : Addr7) (data : Byte) (s : State),
    (s.phase = .decode → exec (.i2cWriteByte addr data) s = .next { s with work.polls := 0, phase := .i2IdlePoll }) ∧
    (s.phase = .i2Start → exec (.i2cWriteByte addr data) s = .next { s with
      per.ctrl := ctrlWord addr 1 false false, hist := s.hist ++ [.pWr .ctrl (ctrlWord addr 1 false false)],
      work.polls := 0, phase := .i2TxPoll }) ∧
    (s.phase = .i2TxWrite → exec (.i2cWriteByte addr data) s = .next { s with
      per.txdr := data.setWidth 32, hist := s.hist ++ [.pWr .txdr (data.setWidth 32)], work.polls := 0, phase := .i2TcPoll }) ∧
    (s.phase = .i2Stop → exec (.i2cWriteByte addr data) s = .next { s with
      per.ctrl := s.per.ctrl ||| 0x00040000, hist := s.hist ++ [.pStop], work.polls := 0, phase := .i2StopfPoll }) ∧
    (s.phase = .i2StopfClear → exec (.i2cWriteByte addr data) s = .next { s with
      per.clear := 0x00000010, hist := s.hist ++ [.pWr .clear 0x00000010, .complete 0],
      res.status := 0, res.statusWritten := true, phase := .idle })

/-- `I2C_WRITE_BYTES`, the phases that are no waits: START for `count` bytes (none: straight to the transfer-complete wait), the
fetch of byte `IDX` of the buffer modulo 2^32, its `TXDR` write, STOP, the clear and OK (41_i2c R147, 20_memory R61). -/
def Obligations.WriteBytesSteps : Prop :=
  ∀ (addr : Addr7) (count : Byte) (buf : Word) (s : State),
    (s.phase = .decode → exec (.i2cWriteBytes addr count buf) s = .next { s with work.polls := 0, phase := .i2IdlePoll }) ∧
    (s.phase = .i2Start → exec (.i2cWriteBytes addr count buf) s = .next { s with
      per.ctrl := ctrlWord addr count false false, hist := s.hist ++ [.pWr .ctrl (ctrlWord addr count false false)],
      work.idx := 0, work.polls := 0, phase := if count = 0 then .i2TcPoll else .i2TxPoll }) ∧
    (s.phase = .i2TxFetch → admits s.cfg (buf + s.work.idx.setWidth 32) = true →
      exec (.i2cWriteBytes addr count buf) s = .next { s with
        work.byte := Memory.read s.mem (buf + s.work.idx.setWidth 32).toNat,
        hist := s.hist ++ [.mRd (buf + s.work.idx.setWidth 32) (Memory.read s.mem (buf + s.work.idx.setWidth 32).toNat)],
        phase := .i2TxWrite }) ∧
    (s.phase = .i2TxWrite → exec (.i2cWriteBytes addr count buf) s = .next { s with
      per.txdr := s.work.byte.setWidth 32, hist := s.hist ++ [.pWr .txdr (s.work.byte.setWidth 32)],
      work.idx := s.work.idx + 1, work.polls := 0,
      phase := if (s.work.idx + 1).toNat < count.toNat then .i2TxPoll else .i2TcPoll }) ∧
    (s.phase = .i2Stop → exec (.i2cWriteBytes addr count buf) s = .next { s with
      per.ctrl := s.per.ctrl ||| 0x00040000, hist := s.hist ++ [.pStop], work.polls := 0, phase := .i2StopfPoll }) ∧
    (s.phase = .i2StopfClear → exec (.i2cWriteBytes addr count buf) s = .next { s with
      per.clear := 0x00000010, hist := s.hist ++ [.pWr .clear 0x00000010, .complete 0],
      res.status := 0, res.statusWritten := true, phase := .idle })

/-- `I2C_READ_BYTES`, the phases that are no waits: the register-select write without STOP, the repeated START for `count` bytes
with STOP on completion, each received byte stored at byte `IDX` of the buffer modulo 2^32, the clear and OK (41_i2c R150). That
`per.rxdr` takes the word read is the model's choice, log 8. -/
def Obligations.ReadBytesSteps : Prop :=
  ∀ (addr : Addr7) (reg count : Byte) (buf : Word) (s : State),
    (s.phase = .decode → exec (.i2cReadBytes addr reg count buf) s = .next { s with work.polls := 0, phase := .i2IdlePoll }) ∧
    (s.phase = .i2Start → exec (.i2cReadBytes addr reg count buf) s = .next { s with
      per.ctrl := ctrlWord addr 1 false false, hist := s.hist ++ [.pWr .ctrl (ctrlWord addr 1 false false)],
      work.polls := 0, phase := .i2TxPoll }) ∧
    (s.phase = .i2TxWrite → exec (.i2cReadBytes addr reg count buf) s = .next { s with
      per.txdr := reg.setWidth 32, hist := s.hist ++ [.pWr .txdr (reg.setWidth 32)], work.polls := 0, phase := .i2TcPoll }) ∧
    (s.phase = .i2Restart → exec (.i2cReadBytes addr reg count buf) s = .next { s with
      per.ctrl := ctrlWord addr count true true, hist := s.hist ++ [.pWr .ctrl (ctrlWord addr count true true)],
      work.idx := 0, work.polls := 0, phase := if count = 0 then .i2StopfPoll else .i2RxPoll }) ∧
    (s.phase = .i2RxRead → exec (.i2cReadBytes addr reg count buf) s = .next { s.dropDraw with
      per.rxdr := s.draw.word, hist := s.hist ++ [.pRd .rxdr s.draw.word], work.byte := s.draw.word.setWidth 8,
      phase := .i2RxStore }) ∧
    (s.phase = .i2RxStore → admits s.cfg (buf + s.work.idx.setWidth 32) = true →
      exec (.i2cReadBytes addr reg count buf) s = .next { s with
        mem := Memory.write s.mem (buf + s.work.idx.setWidth 32).toNat s.work.byte,
        hist := s.hist ++ [.mWr (buf + s.work.idx.setWidth 32) s.work.byte], work.idx := s.work.idx + 1, work.polls := 0,
        phase := if (s.work.idx + 1).toNat < count.toNat then .i2RxPoll else .i2StopfPoll }) ∧
    (s.phase = .i2StopfClear → exec (.i2cReadBytes addr reg count buf) s = .next { s with
      per.clear := 0x00000010, hist := s.hist ++ [.pWr .clear 0x00000010, .complete 0],
      res.status := 0, res.statusWritten := true, phase := .idle })

/-- A buffer byte that is not admitted leaves SEQ stuck at that byte: the step stops by name (20_memory R69, 60_exceptions R213,
log 10). -/
def Obligations.BufferByteNotAdmitted : Prop :=
  (∀ (addr : Addr7) (count : Byte) (buf : Word) (s : State), s.phase = .i2TxFetch →
    admits s.cfg (buf + s.work.idx.setWidth 32) = false →
    exec (.i2cWriteBytes addr count buf) s = .fault (.hmemNotAdmitted (buf + s.work.idx.setWidth 32))) ∧
  (∀ (addr : Addr7) (reg count : Byte) (buf : Word) (s : State), s.phase = .i2RxStore →
    admits s.cfg (buf + s.work.idx.setWidth 32) = false →
    exec (.i2cReadBytes addr reg count buf) s = .fault (.hmemNotAdmitted (buf + s.work.idx.setWidth 32)))

/-- Every run of `I2C_WRITE_BYTE` that ends with OK, however the agents interleave, made exactly these accesses: WaitIdle's reads,
one START for one byte, the ready wait, one `TXDR` write of the byte, the transfer wait, one STOP, the STOP wait, the clear; each
wait ends at the first read that meets its condition, within `POLL_LIMIT` reads in `BOUNDED` mode (41_i2c R145, R146, R149). -/
def Obligations.WriteByteTrace : Prop :=
  ∀ (addr : Addr7) (data : Byte) (k : Nat) (s t : State) (h : List Event), s.cfg.wellFormed = true →
    s.Starts (.i2cWriteByte addr data) → RunOf k s t h → .complete 0 ∈ h →
    ∃ v1 v2 v3 v4 : List Word, Wait.passes .idle v1 ∧ Wait.passes .tx v2 ∧ Wait.passes .tc v3 ∧ Wait.passes .stopf v4 ∧
      (s.cfg.mode = .bounded → ∀ v ∈ [v1, v2, v3, v4], v.length ≤ s.cfg.pollLimit) ∧
      seqEvents h = statusReads v1 ++ [.pWr .ctrl (ctrlWord addr 1 false false)] ++ statusReads v2 ++
        [.pWr .txdr (data.setWidth 32)] ++ statusReads v3 ++ [.pStop] ++ statusReads v4 ++
        [.pWr .clear 0x00000010, .complete 0]

/-- Every run of `I2C_WRITE_BYTES` that ends with OK, however the agents interleave, made exactly these accesses: one START for
`count` bytes, then per buffer byte, in order, the ready wait, the read of the byte and its `TXDR` write, then the transfer wait,
exactly one STOP, the STOP wait and the clear (41_i2c R147, R148, R149). -/
def Obligations.WriteBytesTrace : Prop :=
  ∀ (addr : Addr7) (count : Byte) (buf : Word) (k : Nat) (s t : State) (h : List Event), s.cfg.wellFormed = true →
    s.Starts (.i2cWriteBytes addr count buf) → RunOf k s t h → .complete 0 ∈ h →
    ∃ (v1 v3 v4 : List Word) (vs : List (List Word)), Wait.passes .idle v1 ∧ vs.length = count.toNat ∧
      (∀ v ∈ vs, Wait.passes .tx v) ∧ Wait.passes .tc v3 ∧ Wait.passes .stopf v4 ∧
      (s.cfg.mode = .bounded → ∀ v ∈ v1 :: v3 :: v4 :: vs, v.length ≤ s.cfg.pollLimit) ∧
      seqEvents h = statusReads v1 ++ [.pWr .ctrl (ctrlWord addr count false false)] ++ txLoopEvents s.mem buf vs ++
        statusReads v3 ++ [.pStop] ++ statusReads v4 ++ [.pWr .clear 0x00000010, .complete 0]

/-- Every run of `I2C_READ_BYTES` that ends with OK, however the agents interleave, made exactly these accesses: one START for one
byte, one `TXDR` write of the register byte, the transfer wait, one repeated START for reading `count` bytes, then per byte, in
order, the receive wait, the `RXDR` read and the store of its low byte, then the STOP wait and the clear, with no STOP of SEQ's own
(41_i2c R150, R151, R149). -/
def Obligations.ReadBytesTrace : Prop :=
  ∀ (addr : Addr7) (reg count : Byte) (buf : Word) (k : Nat) (s t : State) (h : List Event), s.cfg.wellFormed = true →
    s.Starts (.i2cReadBytes addr reg count buf) → RunOf k s t h → .complete 0 ∈ h →
    ∃ (v1 v2 v3 v4 : List Word) (vs : List (List Word × Word)), Wait.passes .idle v1 ∧ Wait.passes .tx v2 ∧
      Wait.passes .tc v3 ∧ vs.length = count.toNat ∧ (∀ v ∈ vs, Wait.passes .rx v.1) ∧ Wait.passes .stopf v4 ∧
      (s.cfg.mode = .bounded → ∀ v ∈ v1 :: v2 :: v3 :: v4 :: vs.map Prod.fst, v.length ≤ s.cfg.pollLimit) ∧
      seqEvents h = statusReads v1 ++ [.pWr .ctrl (ctrlWord addr 1 false false)] ++ statusReads v2 ++
        [.pWr .txdr (reg.setWidth 32)] ++ statusReads v3 ++ [.pWr .ctrl (ctrlWord addr count true true)] ++
        rxLoopEvents buf vs ++ statusReads v4 ++ [.pWr .clear 0x00000010, .complete 0]

/-- Every run of an I2C command that ends with an error: the mode is `BOUNDED`, and either WaitIdle failed, with `POLL_LIMIT` busy
reads and no write at all, or another wait failed after `POLL_LIMIT` reads and one abort followed: one STOP, 1 to `POLL_LIMIT` reads
that end at the first `STOPF`, the clear, and the error of the wait that failed; before it at most the command's `TXDR` writes, and
one STOP if a write command's STOP wait failed, else none (41_i2c R140, R142, R148, 60_exceptions R216). -/
def Obligations.I2cErrorTrace : Prop :=
  ∀ (i : Instr) (k : Nat) (s t : State) (h : List Event) (c : Code), i.isI2c = true → s.cfg.wellFormed = true → s.Starts i →
    RunOf k s t h → .complete c ∈ h → c ≠ 0 →
    s.cfg.mode = .bounded ∧
    ((c = 1 ∧ ∃ v : List Word, v.length = s.cfg.pollLimit ∧ (∀ x ∈ v, Wait.holds .idle x = false) ∧
        seqEvents h = statusReads v ++ [.complete 1]) ∨
     (∃ (w : Wait) (pre : List Event) (v us : List Word), w ≠ .idle ∧ c = w.err.code ∧
        v.length = s.cfg.pollLimit ∧ (∀ x ∈ v, w.holds x = false) ∧
        us ≠ [] ∧ us.length ≤ s.cfg.pollLimit ∧ (∀ x ∈ us.dropLast, x.getLsbD 4 = false) ∧
        (us.length < s.cfg.pollLimit → ∃ x, us.getLast? = some x ∧ x.getLsbD 4 = true) ∧
        txCount pre ≤ i.txBytes ∧ stopCount pre = (if w = .stopf ∧ i.waitNext .rx = none then 1 else 0) ∧
        seqEvents h = pre ++ statusReads v ++ [.pStop] ++ statusReads us ++ [.pWr .clear 0x00000010, .complete c]))

/-- In `BOUNDED` mode a command polls `STATUS` at most `POLL_LIMIT` times per wait step, the abort adding one wait step, however the
agents interleave; and it ends after finitely many turns of SEQ, whatever the draws: it has completed, or it is stuck on host memory
(41_i2c R152, 20_memory R69; the stop is log 10). -/
def Obligations.BoundedEnds : Prop :=
  (∀ (i : Instr) (k : Nat) (s t : State) (h : List Event), i.isI2c = true → s.cfg.wellFormed = true → s.cfg.mode = .bounded →
    s.Starts i → RunOf k s t h → pollCount h ≤ s.cfg.pollLimit * (i.waitSteps + 1)) ∧
  (∀ (i : Instr) (n : Nat) (s : State), i.isI2c = true → s.cfg.wellFormed = true → s.cfg.mode = .bounded → s.Starts i →
    s.faults.clockReinit = false → s.cfg.pollLimit * (i.waitSteps + 1) + i.plainAccesses + 3 ≤ n →
    (∃ a, admits s.cfg a = false ∧ s.seqRun n = .fault (.hmemNotAdmitted a)) ∨ (∃ t, s.seqRun n = .next t ∧ t.phase = .idle))

/-- In `BASELINE` mode a wait whose flag never takes the awaited value polls for ever: after any number of such reads SEQ is still
at the wait, with nothing but the reads recorded (41_i2c R141, 60_exceptions R213). -/
def Obligations.BaselineHang : Prop :=
  ∀ (i : Instr) (w : Wait) (n : Phase) (ds rest : List Draw) (s : State), i.waitNext w = some n → s.phase = w.phase →
    s.cmd.instr = some i → s.faults.clockReinit = false → s.cfg.mode = .baseline → s.env.draws = ds ++ rest →
    (∀ d ∈ ds, w.holds d.word = false) →
    ∃ t, s.seqRun ds.length = .next t ∧ t.phase = w.phase ∧ t.res = s.res ∧ t.mem = s.mem ∧
      t.hist = s.hist ++ statusReads (ds.map Draw.word)

/-- `I2C_WRITE_BYTES` completes with OK on any reads that let its waits pass, after the bytes of the buffer were sent in order, and
leaves memory, the timers and the pins as they were (41_i2c R147, R148). -/
def Obligations.WriteBytesCompletes : Prop :=
  ∀ (addr : Addr7) (count : Byte) (buf : Word) (s : State) (k1 k3 k4 rest : List Draw) (ks : List (List Draw)),
    s.Starts (.i2cWriteBytes addr count buf) → s.faults.clockReinit = false → ks.length = count.toNat →
    s.env.draws = k1 ++ ks.flatten ++ k3 ++ k4 ++ rest →
    Wait.passes .idle (k1.map Draw.word) → (∀ k ∈ ks, Wait.passes .tx (k.map Draw.word)) →
    Wait.passes .tc (k3.map Draw.word) → Wait.passes .stopf (k4.map Draw.word) →
    (s.cfg.mode = .bounded → ∀ k ∈ k1 :: k3 :: k4 :: ks, k.length ≤ s.cfg.pollLimit) →
    (∀ j < count.toNat, admits s.cfg (buf + BitVec.ofNat 32 j) = true) →
    ∃ t, s.seqRun (k1.length + ks.flatten.length + k3.length + k4.length + 2 * count.toNat + 4) = .next t ∧ t.phase = .idle ∧
      t.res = { s.res with status := 0, statusWritten := true } ∧ t.mem = s.mem ∧ t.clk = s.clk ∧ t.mst = s.mst ∧
      t.trig = s.trig ∧ t.faults = s.faults ∧ t.env.draws = rest ∧
      t.hist = s.hist ++ statusReads (k1.map Draw.word) ++ [.pWr .ctrl (ctrlWord addr count false false)] ++
        txLoopEvents s.mem buf (ks.map (fun k => k.map Draw.word)) ++ statusReads (k3.map Draw.word) ++ [.pStop] ++
        statusReads (k4.map Draw.word) ++ [.pWr .clear 0x00000010, .complete 0]

/-- `I2C_READ_BYTES` completes with OK on any reads that let its waits pass; byte `j` of the buffer, modulo 2^32, then holds the low
byte of the `j`-th `RXDR` read, and every byte outside the buffer is unchanged (41_i2c R150, R151, 20_memory R61, R68). -/
def Obligations.ReadBytesCompletes : Prop :=
  ∀ (addr : Addr7) (reg count : Byte) (buf : Word) (s : State) (k1 k2 k3 k4 rest : List Draw) (ks : List (List Draw × Draw)),
    s.Starts (.i2cReadBytes addr reg count buf) → s.faults.clockReinit = false → Memory.wf s.mem = true →
    ks.length = count.toNat → s.env.draws = k1 ++ k2 ++ k3 ++ (ks.map (fun p => p.1 ++ [p.2])).flatten ++ k4 ++ rest →
    Wait.passes .idle (k1.map Draw.word) → Wait.passes .tx (k2.map Draw.word) → Wait.passes .tc (k3.map Draw.word) →
    (∀ p ∈ ks, Wait.passes .rx (p.1.map Draw.word)) → Wait.passes .stopf (k4.map Draw.word) →
    (s.cfg.mode = .bounded → ∀ k ∈ k1 :: k2 :: k3 :: k4 :: ks.map Prod.fst, k.length ≤ s.cfg.pollLimit) →
    (∀ j < count.toNat, admits s.cfg (buf + BitVec.ofNat 32 j) = true) →
    ∃ t, s.seqRun (k1.length + k2.length + k3.length + (ks.map (fun p => p.1 ++ [p.2])).flatten.length + k4.length +
          count.toNat + 5) = .next t ∧ t.phase = .idle ∧
      t.res = { s.res with status := 0, statusWritten := true } ∧ t.clk = s.clk ∧ t.mst = s.mst ∧ t.trig = s.trig ∧
      t.faults = s.faults ∧ t.env.draws = rest ∧
      (∀ (j : Nat) (p : List Draw × Draw), ks[j]? = some p →
        Memory.read t.mem (buf + BitVec.ofNat 32 j).toNat = p.2.word.setWidth 8) ∧
      (∀ a : Nat, (∀ j < count.toNat, a ≠ (buf + BitVec.ofNat 32 j).toNat) → Memory.read t.mem a = Memory.read s.mem a) ∧
      t.hist = s.hist ++ statusReads (k1.map Draw.word) ++ [.pWr .ctrl (ctrlWord addr 1 false false)] ++
        statusReads (k2.map Draw.word) ++ [.pWr .txdr (reg.setWidth 32)] ++ statusReads (k3.map Draw.word) ++
        [.pWr .ctrl (ctrlWord addr count true true)] ++ rxLoopEvents buf (ks.map (fun p => (p.1.map Draw.word, p.2.word))) ++
        statusReads (k4.map Draw.word) ++ [.pWr .clear 0x00000010, .complete 0]

/-- `I2C_WRITE_BYTE` in the reference environment (20_memory R76 to R85): with a present slave it ends with OK and the wire shows
START, the address byte with the write bit, the byte, STOP; with an absent slave it ends with `NO_ACK` after the abort's STOP; on a
wedged bus it ends with `BUS_BUSY_TIMEOUT` and the wire shows nothing. The reference is an assumption about the environment, log 19. -/
def Obligations.ReferenceWriteByte : Prop :=
  ∀ (addr : Addr7) (data : Byte) (s : State) (e : RefEnv) (present wedged : Bool) (sb : List Byte),
    s.Starts (.i2cWriteByte addr data) → s.faults.clockReinit = false → s.cfg.wellFormed = true → s.cfg.mode = .bounded →
    e.per = RefPer.reset present wedged sb →
    ∃ (n : Nat) (e' : RefEnv) (t : State), RefEnv.run n e s = some (e', t) ∧ t.phase = .idle ∧
      (if wedged then t.res.status = 1 ∧ e'.per.wire = []
       else if present then t.res.status = 0 ∧ e'.per.wire = [.s, .a (addr ++ 0#1), .d data, .p]
       else t.res.status = 2 ∧ e'.per.wire = [.s, .a (addr ++ 0#1), .p])

/-! ### The ranging family (42_ranger) -/

/-- `MEASURE`, every phase (42_ranger R181 to R184): the trigger levels with their `TRIG_US` delays, the two sampling loops with their
timeouts, the settle of `SETTLE_MS`, and the result registers with the status, all at the last step; and the phases of its delays
(40_clock R123, R125), which return to `RET`: `POLLS` is cleared if that is a poll phase (41_i2c R140; `MEASURE` sets none such), and a
`RET` of `DONE`, which `MEASURE` does not set either, completes with OK. A hold lets the turn pass (log 12). -/
def Obligations.MeasureSteps : Prop :=
  ∀ (timeout : Word) (s : State),
    (s.phase = .decode → exec (.measure timeout) s = .next { s with phase := .rgTrig0 }) ∧
    (s.phase = .rgTrig0 → exec (.measure timeout) s = .next { s with
      trig := false, hist := s.hist ++ [.trigWr false], work.drem := 10, work.ret := .back .rgTrig1, phase := .duEntry }) ∧
    (s.phase = .rgTrig1 → exec (.measure timeout) s = .next { s with
      trig := true, hist := s.hist ++ [.trigWr true], work.drem := 10, work.ret := .back .rgTrig2, phase := .duEntry }) ∧
    (s.phase = .rgTrig2 → exec (.measure timeout) s = .next { s with
      trig := false, hist := s.hist ++ [.trigWr false], work.ecnt := 0, phase := .rgASample }) ∧
    (s.phase = .rgASample → s.draw.bit = true → exec (.measure timeout) s = .next { s.dropDraw with
      hist := s.hist ++ [.echoRd true], work.ecnt := 0, phase := .rgBSample }) ∧
    (s.phase = .rgASample → s.draw.bit = false → exec (.measure timeout) s = .next
      (if timeout.toNat < (s.work.ecnt + 1).toNat then { s.dropDraw with
          hist := s.hist ++ [.echoRd false], work.ecnt := s.work.ecnt + 1, work.val := false, work.dur := 0, work.ekind := 4,
          work.mrem := s.cfg.settleMs, work.ret := .back .rgSettle, phase := .dmArm }
        else { s.dropDraw with
          hist := s.hist ++ [.echoRd false], work.ecnt := s.work.ecnt + 1, work.drem := 1, work.ret := .back .rgASample,
          phase := .duEntry })) ∧
    (s.phase = .rgBSample → s.draw.bit = false → exec (.measure timeout) s = .next { s.dropDraw with
      hist := s.hist ++ [.echoRd false], work.val := true, work.dur := s.work.ecnt.setWidth 32, work.ekind := 0,
      work.mrem := s.cfg.settleMs, work.ret := .back .rgSettle, phase := .dmArm }) ∧
    (s.phase = .rgBSample → s.draw.bit = true → exec (.measure timeout) s = .next
      (if timeout.toNat < (s.work.ecnt + 1).toNat then { s.dropDraw with
          hist := s.hist ++ [.echoRd true], work.ecnt := s.work.ecnt + 1, work.val := false, work.dur := 0, work.ekind := 5,
          work.mrem := s.cfg.settleMs, work.ret := .back .rgSettle, phase := .dmArm }
        else { s.dropDraw with
          hist := s.hist ++ [.echoRd true], work.ecnt := s.work.ecnt + 1, work.drem := 1, work.ret := .back .rgBSample,
          phase := .duEntry })) ∧
    (s.phase = .rgSettle → exec (.measure timeout) s = .next { s with
      res.rngValid := s.work.val, res.rngDuration := s.work.dur, res.rngDistance := s.work.dur / 58, res.rngWritten := true,
      res.status := s.work.ekind, res.statusWritten := true, hist := s.hist ++ [.complete s.work.ekind], phase := .idle }) ∧
    (s.phase = .duEntry → s.work.drem = 0 → exec (.measure timeout) s = .next
      (match s.work.ret with
      | .back p => { s with phase := p, work.polls := if p.isPoll then 0 else s.work.polls }
      | .done => { s with
          res.status := 0, res.statusWritten := true, hist := s.hist ++ [.complete 0], phase := .idle })) ∧
    (s.phase = .duEntry → s.work.drem ≠ 0 → exec (.measure timeout) s = .next { s with
      clk.uif := false, hist := s.hist ++ [.uifClr], phase := .duWait }) ∧
    (s.phase = .duWait → s.clk.uif = true → exec (.measure timeout) s = .next { s with
      hist := s.hist ++ [.uifRd], phase := .duClear }) ∧
    (s.phase = .duWait → s.clk.uif = false → exec (.measure timeout) s = .next s) ∧
    (s.phase = .duClear → s.work.drem ≠ 1 → exec (.measure timeout) s = .next { s with
      clk.uif := false, work.drem := s.work.drem - 1, hist := s.hist ++ [.uifClr], phase := .duWait }) ∧
    (s.phase = .duClear → s.work.drem = 1 → exec (.measure timeout) s = .next
      (match s.work.ret with
      | .back p => { s with
          clk.uif := false, work.drem := 0, work.polls := if p.isPoll then 0 else s.work.polls,
          hist := s.hist ++ [.uifClr], phase := p }
      | .done => { s with
          clk.uif := false, work.drem := 0, res.status := 0, res.statusWritten := true,
          hist := s.hist ++ [.uifClr, .complete 0], phase := .idle })) ∧
    (s.phase = .dmArm → s.work.mrem = 0 → exec (.measure timeout) s = .next
      (match s.work.ret with
      | .back p => { s with phase := p, work.polls := if p.isPoll then 0 else s.work.polls }
      | .done => { s with
          res.status := 0, res.statusWritten := true, hist := s.hist ++ [.complete 0], phase := .idle })) ∧
    (s.phase = .dmArm → s.work.mrem ≠ 0 → exec (.measure timeout) s = .next { s with
      mst.armed := true, mst.done := false, hist := s.hist ++ [.msArm], phase := .dmWait }) ∧
    (s.phase = .dmWait → s.mst.done = true → exec (.measure timeout) s = .next { s with
      work.mrem := s.work.mrem - 1, hist := s.hist ++ [.msDoneRd], phase := .dmArm }) ∧
    (s.phase = .dmWait → s.mst.done = false → exec (.measure timeout) s = .next s)

/-- Every run of `MEASURE` that completes, however the agents interleave: the trigger pulse, then READ_ECHO's samples with a
one-tick delay after each but the last of a phase, then the settle. A rise timeout took `T + 1` low samples, a fall timeout `T + 1`
high ones after the rise, both with the sentinel; a valid duration is the number of high samples after the rise, at most `T`. The
distance is the duration over 58, and `SETTLE_MS` expiries fell (42_ranger R181 to R184, R187, R188, 10_state R26). -/
def Obligations.MeasureTrace : Prop :=
  ∀ (timeout : Word) (k : Nat) (s t : State) (h : List Event) (c : Code), s.Starts (.measure timeout) → s.mst.armed = false →
    RunOf k s t h → .complete c ∈ h →
    t.res.rngWritten = true ∧ t.res.status = c ∧ t.res.rngDistance = t.res.rngDuration / 58 ∧
    expiryCount h = s.cfg.settleMs.toNat ∧
    ((c = 4 ∧ t.res.rngValid = false ∧ t.res.rngDuration = 0 ∧
        seqEvents h = triggerEvents ++ echoLoopEvents false timeout.toNat ++ [.echoRd false] ++
          delayMsEvents s.cfg.settleMs.toNat ++ [.complete 4]) ∨
     (c = 5 ∧ t.res.rngValid = false ∧ t.res.rngDuration = 0 ∧ ∃ a : Nat, a ≤ timeout.toNat ∧
        seqEvents h = triggerEvents ++ echoLoopEvents false a ++ [.echoRd true] ++ echoLoopEvents true timeout.toNat ++
          [.echoRd true] ++ delayMsEvents s.cfg.settleMs.toNat ++ [.complete 5]) ∨
     (c = 0 ∧ t.res.rngValid = true ∧ t.res.rngDuration.toNat ≤ timeout.toNat ∧ ∃ a : Nat, a ≤ timeout.toNat ∧
        seqEvents h = triggerEvents ++ echoLoopEvents false a ++ [.echoRd true] ++
          echoLoopEvents true t.res.rngDuration.toNat ++ [.echoRd false] ++ delayMsEvents s.cfg.settleMs.toNat ++ [.complete 0]))

/-- The trigger pulse of every `MEASURE` that completes: low, high, low, the low and the high level each held for at least
`TRIG_US` = 10 ticks, and the pin is not driven otherwise (42_ranger R182, 70_reset R254). -/
def Obligations.TriggerHeld : Prop :=
  ∀ (timeout : Word) (k : Nat) (s t : State) (h : List Event) (c : Code), s.Starts (.measure timeout) → RunOf k s t h →
    .complete c ∈ h →
    ∃ a b d r : List Event, h = a ++ [.trigWr false] ++ b ++ [.trigWr true] ++ d ++ [.trigWr false] ++ r ∧
      (∀ l : Bool, .trigWr l ∉ a ++ b ++ d ++ r) ∧ 10 ≤ tickCount b ∧ 10 ≤ tickCount d

/-- With no echo every `MEASURE` that completes reports the invalid sentinel and a rise timeout, whatever the earlier measurement
left (42_ranger R186). -/
def Obligations.NoEchoNoRange : Prop :=
  ∀ (timeout : Word) (k : Nat) (s t : State) (h : List Event) (c : Code), s.Starts (.measure timeout) → RunOf k s t h →
    .complete c ∈ h → .echoRd true ∉ h →
    c = 4 ∧ t.res = { s.res with
      rngValid := false, rngDuration := 0, rngDistance := 0, rngWritten := true, status := 4, statusWritten := true }

/-- The distance is the duration over 58, rounded down, at most 74051160; the values the spec works out (42_ranger R184). -/
def Obligations.DistanceRule : Prop :=
  (∀ d : Word, (distance d).toNat = d.toNat / 58) ∧ (∀ d : Word, (distance d).toNat ≤ 74051160) ∧
  distance 0xFFFFFFFF = 74051160 ∧ distance 57 = 0 ∧ distance 58 = 1 ∧ distance 115 = 1 ∧ distance 116 = 2 ∧
  distance 580 = 10 ∧ distance 1160 = 20

/-! ### Results, history, faults -/

/-- `complete` writes `RES_STATUS`, appends `Complete` and ends the command; with it `CLOCK_NOW` writes `RES_VALUE` and `MEASURE`
the three measurement registers, and a SEQ step that completes nothing changes no result register (60_exceptions R225). -/
def Obligations.CompleteRule : Prop :=
  (∀ (c : Code) (s : State), s.complete c = { s with
    res.status := c, res.statusWritten := true, hist := s.hist ++ [.complete c], phase := .idle }) ∧
  (∀ (i : Instr) (s t : State), exec i s = .next t →
    (t.res = s.res ∧ ∃ es, t.hist = s.hist ++ es ∧ ∀ c, .complete c ∉ es) ∨
    (∃ (c : Code) (es : List Event), t.hist = s.hist ++ es ++ [.complete c] ∧ (∀ c', .complete c' ∉ es) ∧ t.phase = .idle ∧
      t.res = (match i with
        | .clockNow => { s.res with value := s.clk.cnt, valueWritten := true, status := c, statusWritten := true }
        | .measure _ => if s.phase = .rgSettle then { s.res with
              rngValid := s.work.val, rngDuration := s.work.dur, rngDistance := distance s.work.dur, rngWritten := true,
              status := c, statusWritten := true }
            else { s.res with status := c, statusWritten := true }
        | _ => { s.res with status := c, statusWritten := true }))) ∧
  (∀ s t : State, step s = .next t → t.res ≠ s.res → s.move = .seq)

/-- The status codes each command may complete with, in each mode, however the agents interleave, and what `RES_STATUS` then holds
(60_exceptions R211, 40_clock R120, 41_i2c R141). -/
def Obligations.StatusesLegal : Prop :=
  ∀ (i : Instr) (k : Nat) (s t : State) (h : List Event) (c : Code), s.Starts i → RunOf k s t h → .complete c ∈ h →
    t.res.status = c ∧
    match i with
    | .initClock => c = 0
    | .clockNow => c = 0
    | .delayUs _ => c = 0
    | .delayMs _ => c = 0
    | .i2cWriteByte _ _ => c = 0 ∨ (s.cfg.mode = .bounded ∧ (c = 1 ∨ c = 2 ∨ c = 3))
    | .i2cWriteBytes _ _ _ => c = 0 ∨ (s.cfg.mode = .bounded ∧ (c = 1 ∨ c = 2 ∨ c = 3))
    | .i2cReadBytes _ _ _ _ => c = 0 ∨ (s.cfg.mode = .bounded ∧ (c = 1 ∨ c = 2 ∨ c = 3))
    | .measure _ => c = 0 ∨ c = 4 ∨ c = 5

/-- `RES_STATUS` is the status of the last completion in `HIST`: every step keeps it so (10_state R24). -/
def Obligations.StatusIsLast : Prop := ∀ s t : State, s.StatusIsLast → step s = .next t → t.StatusIsLast

/-- Every step only appends to `HIST`, and a SEQ step makes at most one external access; what it appends beside it is a completion or
a fault (00_scope R10, 10_state R41, 20_memory R65). -/
def Obligations.OneAccessPerStep : Prop :=
  (∀ s t : State, step s = .next t → ∃ es, t.hist = s.hist ++ es ∧ es.length ≤ 2) ∧
  (∀ (i : Instr) (s t : State), exec i s = .next t →
    ∃ es, t.hist = s.hist ++ es ∧ es.countP Event.isAccess ≤ 1 ∧
      ∀ e ∈ es, e.isAccess = true ∨ (∃ c, e = .complete c) ∨ e = .fault .clockReinit)

/-- No step removes a fault; a fault of SEQ leaves SEQ where it was and ends its steps, a fault of HOST ends HOST's steps
(10_state R40, 60_exceptions R212; what a faulted agent's turn does is log 11). -/
def Obligations.FaultsStay : Prop :=
  (∀ s t : State, step s = .next t →
    (s.faults.clockReinit = true → t.faults.clockReinit = true) ∧
    (s.faults.reentrant.isSome = true → t.faults.reentrant = s.faults.reentrant) ∧
    (s.faults.unwrittenRead.isSome = true → t.faults.unwrittenRead = s.faults.unwrittenRead)) ∧
  (∀ s t : State, step s = .next t → s.faults.clockReinit = true →
    (t.phase = s.phase ∨ s.phase = .idle) ∧ t.work = s.work ∧ t.res = s.res ∧ t.per = s.per ∧ t.trig = s.trig) ∧
  (∀ s : State, s.hostFaulted = true → s.move ≠ .seq → s.move ≠ .tick → s.move ≠ .msExpire → step s = .next s.dropMove) ∧
  (∀ s t : State, step s = .next t → t.faults ≠ s.faults → t.phase = s.phase ∧ t.cmd = s.cmd ∧ t.work = s.work ∧ t.res = s.res)

/-! ### Frames -/

/-- What `INIT_CLOCK`, `CLOCK_NOW`, `DELAY_US` and `DELAY_MS` leave unchanged: all of memory, the pins, the peripheral registers, the
latched command, the parameters; of the clock `DELAY_US` changes `UIF` only, `CLOCK_NOW` and `DELAY_MS` nothing; of the working
registers only a delay's own; `RES_VALUE` is `CLOCK_NOW`'s alone and the measurement registers are nobody's (40_clock R121 to R126). -/
def Obligations.FrameClock : Prop :=
  ∀ (i : Instr) (s t : State), exec i s = .next t →
    (i = .initClock ∨ i = .clockNow ∨ (∃ n, i = .delayUs n) ∨ (∃ n, i = .delayMs n)) →
    (∀ a, Memory.read t.mem a = Memory.read s.mem a) ∧ t.per = s.per ∧ t.trig = s.trig ∧ t.cmd = s.cmd ∧ t.cfg = s.cfg ∧
    t.hostData = s.hostData ∧ t.env.moves = s.env.moves ∧ t.faults.reentrant = s.faults.reentrant ∧
    t.faults.unwrittenRead = s.faults.unwrittenRead ∧
    t.res.rngValid = s.res.rngValid ∧ t.res.rngDuration = s.res.rngDuration ∧ t.res.rngDistance = s.res.rngDistance ∧
    t.res.rngWritten = s.res.rngWritten ∧
    (i ≠ .clockNow → t.res.value = s.res.value ∧ t.res.valueWritten = s.res.valueWritten) ∧
    (i ≠ .initClock → t.faults = s.faults ∧ t.clk.cnt = s.clk.cnt ∧ t.clk.run = s.clk.run ∧ t.env = s.env) ∧
    ((∀ n, i ≠ .delayMs n) → t.mst = s.mst) ∧
    (i = .clockNow ∨ (∃ n, i = .delayMs n) → t.clk.uif = s.clk.uif) ∧
    (t.phase.isPoll = false → t.work.polls = s.work.polls) ∧
    (match i with
    | .delayUs _ => t.work = { s.work with drem := t.work.drem, ret := t.work.ret, polls := t.work.polls }
    | .delayMs _ => t.work = { s.work with mrem := t.work.mrem, ret := t.work.ret, polls := t.work.polls }
    | _ => t.work = s.work)

/-- What the I2C commands leave unchanged: the clock, the millisecond timer, the pins, the fault record, the latched command, the
parameters, every result register but `RES_STATUS`, the working registers of delays and ranging; and memory: the two write commands
change no byte, `I2C_READ_BYTES` at most the byte at `C_ARG + IDX`, at its store phase only (41_i2c R145, R147, R150). -/
def Obligations.FrameI2c : Prop :=
  ∀ (i : Instr) (s t : State), exec i s = .next t → i.isI2c = true →
    t.clk = s.clk ∧ t.mst = s.mst ∧ t.trig = s.trig ∧ t.faults = s.faults ∧ t.cmd = s.cmd ∧ t.cfg = s.cfg ∧
    t.hostData = s.hostData ∧ t.env.moves = s.env.moves ∧
    t.res = { s.res with status := t.res.status, statusWritten := t.res.statusWritten } ∧
    t.work = { s.work with idx := t.work.idx, polls := t.work.polls, err := t.work.err, byte := t.work.byte } ∧
    (match i with
    | .i2cReadBytes _ _ _ buf => ∀ a : Nat, (s.phase = .i2RxStore → a ≠ (bufferAddress buf s.work.idx).toNat) →
        Memory.read t.mem a = Memory.read s.mem a
    | _ => ∀ a : Nat, Memory.read t.mem a = Memory.read s.mem a)

/-- What `MEASURE` leaves unchanged: all of memory, the peripheral registers, the counter and `RUN`, the fault record, the latched
command, the parameters, `RES_VALUE`, the working registers of the I2C family; outside its last step also the measurement registers
(42_ranger R181, 10_state R25, R26). -/
def Obligations.FrameMeasure : Prop :=
  ∀ (timeout : Word) (s t : State), exec (.measure timeout) s = .next t →
    (∀ a, Memory.read t.mem a = Memory.read s.mem a) ∧ t.per = s.per ∧ t.clk.cnt = s.clk.cnt ∧ t.clk.run = s.clk.run ∧
    t.faults = s.faults ∧ t.cmd = s.cmd ∧ t.cfg = s.cfg ∧ t.hostData = s.hostData ∧ t.env.moves = s.env.moves ∧
    t.res.value = s.res.value ∧ t.res.valueWritten = s.res.valueWritten ∧
    t.work.idx = s.work.idx ∧ t.work.err = s.work.err ∧ t.work.byte = s.work.byte ∧
    (s.phase ≠ .rgSettle → t.res.rngValid = s.res.rngValid ∧ t.res.rngDuration = s.res.rngDuration ∧
      t.res.rngDistance = s.res.rngDistance ∧ t.res.rngWritten = s.res.rngWritten) ∧
    (s.phase ≠ .rgTrig0 → s.phase ≠ .rgTrig1 → s.phase ≠ .rgTrig2 → t.trig = s.trig)

/-- While a command runs, host memory holds what the writes in `HIST` made of it, in their order: no other agent writes it (20_memory
R73, 60_exceptions R224). -/
def Obligations.MemoryFollowsHistory : Prop :=
  ∀ (k : Nat) (s t : State) (h : List Event), s.phase ≠ .idle → RunOf k s t h → t.phase ≠ .idle →
    t.mem = replayWrites s.mem h

/-- The I2C commands use neither timer nor pin: whatever those hold, the step is the same and leaves them as they are (70_reset R246,
20_memory R60). -/
def Obligations.I2cIgnoresTimers : Prop :=
  ∀ (i : Instr) (s : State) (c : Clock) (m : MsTimer) (g : Bool), i.isI2c = true →
    exec i { s with clk := c, mst := m, trig := g } = mapNext (fun t => { t with clk := c, mst := m, trig := g }) (exec i s)

/-- No command reads a working register before it has written it: from a state between commands, a run does the same whatever the
working registers hold, so the values the model gives them at reset decide nothing (10_state R48, log 5). -/
def Obligations.NoStaleWorkingRegister : Prop :=
  ∀ (k : Nat) (s t : State) (w : Work), (s.phase = .idle ∨ s.phase = .decode) → Sys2Proof.core.run k s = .next t →
    ∃ w' : Work, Sys2Proof.core.run k { s with work := w } = .next { t with work := w' }

/-! ### Reset and the invariant -/

/-- What reset leaves, of the values the spec gives (10_state R47, 70_reset R240): idle, not running, not armed, no fault, no history,
no result register with a value; `CNT` is a `CLK_W`-bit value. The clean-entry predicate (70_reset R243) holds as the model has it,
without the platform's boot requirements of 70_reset R246, which are no state of OD-SEQ: the model's reading, log 23. -/
def Obligations.ResetState : Prop :=
  State.reset.phase = .idle ∧ State.reset.busy = false ∧ State.reset.clk.run = false ∧ State.reset.mst.armed = false ∧
  State.reset.faults.isEmpty = true ∧ State.reset.hist = [] ∧ State.reset.res.statusWritten = false ∧
  State.reset.res.valueWritten = false ∧ State.reset.res.rngWritten = false ∧
  State.reset.clk.cnt.toNat < 2 ^ State.reset.cfg.clkW ∧ State.reset.CleanEntry

/-- The invariant of the machine holds at reset. Of its clauses `status` and `range` hold there by the zeros the model gives the result
registers (log 6), and `ekind`, `sentinel` and `cmd` by those of the working registers and latched fields (log 5): 10_state R47 gives
these no value at reset. `mem` holds because reset lists no byte (log 9), `cfg` because the free parameters are in the range of 00_scope
R7 (log 4). The others hold by the values the spec gives (10_state R47, 70_reset R240, R242). -/
def Obligations.ResetInv : Prop := State.reset.Inv

/-- Every step keeps the invariant of the machine: parameters in range, memory canonical, `CNT` below 2^`CLK_W`, `RES_STATUS` legal,
the sentinel and the distance of the measurement registers, the timer armed only while awaited, polls below the limit, and `PHASE` a
point of the legal command that was issued, with what that point says of the working registers. -/
def Obligations.StepKeepsInv : Prop := ∀ s t : State, s.Inv → step s = .next t → t.Inv
end

