-- ==== Sys2Proof/Laws/Decode.lean ====
section
/-! SUPPORT. What a selected descriptor says of its opcode, and the inversion of the decoder (30_encoding R93). -/

namespace Sys2Proof

theorem Mnemonic.selects_iff {m : Mnemonic} {d : Desc} : m.selects d = true ↔ d &&& m.maskWord = m.matchWord := by
  simp [Mnemonic.selects]

/-- `OP` is in every mask: a selected descriptor has the row's opcode. -/
theorem Mnemonic.op_of_selects {m : Mnemonic} {d : Desc} (h : m.selects d = true) : Desc.op d = m.opcode := by
  rw [Mnemonic.selects_iff] at h
  have e : Desc.op (d &&& m.maskWord) = Desc.op d := by
    have : Desc.op (d &&& m.maskWord) = Desc.op d &&& Desc.op m.maskWord := by
      unfold Desc.op; rw [BitVec.extractLsb'_and]
    rw [this]
    have : Desc.op m.maskWord = BitVec.allOnes 4 := by cases m <;> decide
    rw [this, BitVec.and_allOnes]
  rw [← e, h]
  cases m <;> decide

theorem Mnemonic.opcode_injective {m n : Mnemonic} (h : m.opcode = n.opcode) : m = n := by
  revert h; cases m <;> cases n <;> decide

/-- The decoder's inversion: a legal descriptor selects the row of its command, whose operands are its fields. -/
theorem decode_ok {d : Desc} {i : Instr} (h : decode d = .ok i) : ∃ m : Mnemonic, m.selects d = true ∧ i = m.instr d := by
  unfold decode at h
  cases e : Mnemonic.all.find? (fun m => m.selects d) with
  | none => simp [e] at h
  | some m =>
      simp only [e, Except.ok.injEq] at h
      exact ⟨m, by simpa using List.find?_some e, h.symm⟩

/-- The command in `C_OP` with the latched operands is the decoded command. -/
theorem Machine.Cmd.instr_ofDesc {d : Desc} {i : Instr} (h : decode d = .ok i) :
    (Machine.Cmd.ofDesc d).instr = some i := by
  obtain ⟨m, hm, rfl⟩ := decode_ok h
  have e := Mnemonic.op_of_selects hm
  unfold Machine.Cmd.instr Machine.Cmd.ofDesc
  simp only [e]
  cases m <;> rfl

end Sys2Proof
end

