-- ==== Sys2Proof/Laws/Memory.lean ====
section
/-! SUPPORT. Host memory: read after write, and the canonical form that every write keeps. -/

namespace Sys2Proof.Machine

theorem Memory.wfFrom_mono {lo lo' : Nat} {m : Memory} (h : lo' ≤ lo) (w : Memory.wfFrom lo m = true) :
    Memory.wfFrom lo' m = true := by
  cases m with
  | nil => rfl
  | cons c rest =>
      obtain ⟨b, v⟩ := c
      simp only [Memory.wfFrom, Bool.and_eq_true, decide_eq_true_eq] at w ⊢
      exact ⟨⟨⟨h.trans w.1.1.1, w.1.1.2⟩, w.1.2⟩, w.2⟩

/-- An address below every entry is unlisted. -/
theorem Memory.read_below {lo a : Nat} {m : Memory} (w : Memory.wfFrom lo m = true) (h : a < lo) :
    Memory.read m a = Memory.unlisted := by
  induction m generalizing lo with
  | nil => rfl
  | cons c rest ih =>
      obtain ⟨b, v⟩ := c
      simp only [Memory.wfFrom, Bool.and_eq_true, decide_eq_true_eq] at w
      simp only [Memory.read, if_neg (show ¬ a = b by omega)]
      exact ih w.2 (by omega)

theorem Memory.read_insert (m : Memory) (a b : Nat) (v : Byte) :
    Memory.read (Memory.insert m a v) b = if b = a then v else Memory.read m b := by
  induction m with
  | nil => simp [Memory.insert, Memory.read]
  | cons c rest ih =>
      obtain ⟨d, w⟩ := c
      simp only [Memory.insert]
      split
      · subst_vars; simp only [Memory.read]; split <;> simp_all
      · split
        · simp only [Memory.read]
        · simp only [Memory.read, ih]; split <;> split <;> simp_all

theorem Memory.read_erase {lo : Nat} {m : Memory} (w : Memory.wfFrom lo m = true) (a b : Nat) :
    Memory.read (Memory.erase m a) b = if b = a then Memory.unlisted else Memory.read m b := by
  induction m generalizing lo with
  | nil => simp [Memory.erase, Memory.read]
  | cons c rest ih =>
      obtain ⟨d, v⟩ := c
      simp only [Memory.wfFrom, Bool.and_eq_true, decide_eq_true_eq] at w
      simp only [Memory.erase]
      split
      · subst_vars
        simp only [Memory.read]
        split
        · subst_vars; exact Memory.read_below w.2 (Nat.lt_succ_self _)
        · rfl
      · split
        · by_cases e : b = a
          · subst e
            rw [if_pos rfl, Memory.read, if_neg ‹_›]
            exact Memory.read_below w.2 (by omega)
          · rw [if_neg e]
        · simp only [Memory.read, ih w.2]
          split <;> split <;> simp_all

/-- A read after a write gives the value written there, and what was read before everywhere else. -/
theorem Memory.read_write {m : Memory} (w : Memory.wf m = true) (a b : Nat) (v : Byte) :
    Memory.read (Memory.write m a v) b = if b = a then v else Memory.read m b := by
  unfold Memory.write
  split
  · subst_vars; exact Memory.read_erase w a b
  · exact Memory.read_insert m a b v

/-- A write leaves every other address as it was, in any list of cells. -/
theorem Memory.read_write_ne (m : Memory) {a b : Nat} (v : Byte) (h : b ≠ a) :
    Memory.read (Memory.write m a v) b = Memory.read m b := by
  unfold Memory.write
  split
  · induction m with
    | nil => rfl
    | cons c rest ih =>
        obtain ⟨d, u⟩ := c
        simp only [Memory.erase]
        split
        · subst_vars; rw [Memory.read, if_neg h]
        · split
          · rfl
          · simp only [Memory.read, ih]
  · rw [Memory.read_insert, if_neg h]

theorem Memory.wfFrom_insert {lo a : Nat} {m : Memory} {v : Byte} (w : Memory.wfFrom lo m = true) (h : lo ≤ a)
    (ha : a < 2 ^ 32) (hv : v ≠ Memory.unlisted) : Memory.wfFrom lo (Memory.insert m a v) = true := by
  induction m generalizing lo with
  | nil => simpa [Memory.insert, Memory.wfFrom, h, hv] using ha
  | cons c rest ih =>
      obtain ⟨d, u⟩ := c
      simp only [Memory.wfFrom, Bool.and_eq_true, decide_eq_true_eq, bne_iff_ne] at w
      simp only [Memory.insert]
      split
      · subst_vars
        simp only [Memory.wfFrom, Bool.and_eq_true, decide_eq_true_eq, bne_iff_ne]
        exact ⟨⟨⟨h, ha⟩, hv⟩, w.2⟩
      · split
        · simp only [Memory.wfFrom, Bool.and_eq_true, decide_eq_true_eq, bne_iff_ne]
          exact ⟨⟨⟨h, ha⟩, hv⟩, ⟨⟨by omega, w.1.1.2⟩, w.1.2⟩, w.2⟩
        · simp only [Memory.wfFrom, Bool.and_eq_true, decide_eq_true_eq, bne_iff_ne]
          exact ⟨w.1, ih w.2 (by omega)⟩

theorem Memory.wfFrom_erase {lo a : Nat} {m : Memory} (w : Memory.wfFrom lo m = true) :
    Memory.wfFrom lo (Memory.erase m a) = true := by
  induction m generalizing lo with
  | nil => rfl
  | cons c rest ih =>
      obtain ⟨d, u⟩ := c
      have w' := w
      simp only [Memory.wfFrom, Bool.and_eq_true, decide_eq_true_eq, bne_iff_ne] at w
      simp only [Memory.erase]
      split
      · exact Memory.wfFrom_mono (by omega) w.2
      · split
        · exact w'
        · simp only [Memory.wfFrom, Bool.and_eq_true, decide_eq_true_eq, bne_iff_ne]
          exact ⟨w.1, ih w.2⟩

/-- A write at a 32-bit address keeps memory in canonical form. -/
theorem Memory.wf_write {m : Memory} (w : Memory.wf m = true) (a : Word) (v : Byte) :
    Memory.wf (Memory.write m a.toNat v) = true := by
  unfold Memory.write
  split
  · exact Memory.wfFrom_erase w
  · exact Memory.wfFrom_insert w (Nat.zero_le _) a.isLt ‹_›

/-- Memory at reset is in canonical form. -/
theorem Memory.wf_reset : Memory.wf State.reset.mem = true := rfl

end Sys2Proof.Machine
end

