-- ==== Sys2Proof/Laws/State.lean ====
section
/-! SUPPORT. What each named operation does to each group of the state, one lemma per operation and group. -/

namespace Sys2Proof.Machine

@[simp] theorem State.emit_cfg (e : Event) (s : State) : (s.emit e).cfg = s.cfg := rfl
@[simp] theorem State.emit_phase (e : Event) (s : State) : (s.emit e).phase = s.phase := rfl
@[simp] theorem State.emit_cmd (e : Event) (s : State) : (s.emit e).cmd = s.cmd := rfl
@[simp] theorem State.emit_work (e : Event) (s : State) : (s.emit e).work = s.work := rfl
@[simp] theorem State.emit_res (e : Event) (s : State) : (s.emit e).res = s.res := rfl
@[simp] theorem State.emit_per (e : Event) (s : State) : (s.emit e).per = s.per := rfl
@[simp] theorem State.emit_clk (e : Event) (s : State) : (s.emit e).clk = s.clk := rfl
@[simp] theorem State.emit_mst (e : Event) (s : State) : (s.emit e).mst = s.mst := rfl
@[simp] theorem State.emit_trig (e : Event) (s : State) : (s.emit e).trig = s.trig := rfl
@[simp] theorem State.emit_faults (e : Event) (s : State) : (s.emit e).faults = s.faults := rfl
@[simp] theorem State.emit_hist (e : Event) (s : State) : (s.emit e).hist = s.hist ++ [e] := rfl
@[simp] theorem State.emit_mem (e : Event) (s : State) : (s.emit e).mem = s.mem := rfl
@[simp] theorem State.emit_hostData (e : Event) (s : State) : (s.emit e).hostData = s.hostData := rfl
@[simp] theorem State.emit_env (e : Event) (s : State) : (s.emit e).env = s.env := rfl

@[simp] theorem State.complete_cfg (c : Code) (s : State) : (s.complete c).cfg = s.cfg := rfl
@[simp] theorem State.complete_phase (c : Code) (s : State) : (s.complete c).phase = .idle := rfl
@[simp] theorem State.complete_cmd (c : Code) (s : State) : (s.complete c).cmd = s.cmd := rfl
@[simp] theorem State.complete_work (c : Code) (s : State) : (s.complete c).work = s.work := rfl
@[simp] theorem State.complete_res (c : Code) (s : State) : (s.complete c).res = { s.res with status := c, statusWritten := true } := rfl
@[simp] theorem State.complete_per (c : Code) (s : State) : (s.complete c).per = s.per := rfl
@[simp] theorem State.complete_clk (c : Code) (s : State) : (s.complete c).clk = s.clk := rfl
@[simp] theorem State.complete_mst (c : Code) (s : State) : (s.complete c).mst = s.mst := rfl
@[simp] theorem State.complete_trig (c : Code) (s : State) : (s.complete c).trig = s.trig := rfl
@[simp] theorem State.complete_faults (c : Code) (s : State) : (s.complete c).faults = s.faults := rfl
@[simp] theorem State.complete_hist (c : Code) (s : State) : (s.complete c).hist = s.hist ++ [.complete c] := rfl
@[simp] theorem State.complete_mem (c : Code) (s : State) : (s.complete c).mem = s.mem := rfl
@[simp] theorem State.complete_hostData (c : Code) (s : State) : (s.complete c).hostData = s.hostData := rfl
@[simp] theorem State.complete_env (c : Code) (s : State) : (s.complete c).env = s.env := rfl

@[simp] theorem State.raise_cfg (f : ModelFault) (s : State) : (s.raise f).cfg = s.cfg := rfl
@[simp] theorem State.raise_phase (f : ModelFault) (s : State) : (s.raise f).phase = s.phase := rfl
@[simp] theorem State.raise_cmd (f : ModelFault) (s : State) : (s.raise f).cmd = s.cmd := rfl
@[simp] theorem State.raise_work (f : ModelFault) (s : State) : (s.raise f).work = s.work := rfl
@[simp] theorem State.raise_res (f : ModelFault) (s : State) : (s.raise f).res = s.res := rfl
@[simp] theorem State.raise_per (f : ModelFault) (s : State) : (s.raise f).per = s.per := rfl
@[simp] theorem State.raise_clk (f : ModelFault) (s : State) : (s.raise f).clk = s.clk := rfl
@[simp] theorem State.raise_mst (f : ModelFault) (s : State) : (s.raise f).mst = s.mst := rfl
@[simp] theorem State.raise_trig (f : ModelFault) (s : State) : (s.raise f).trig = s.trig := rfl
@[simp] theorem State.raise_faults (f : ModelFault) (s : State) : (s.raise f).faults = s.faults.add f := rfl
@[simp] theorem State.raise_hist (f : ModelFault) (s : State) : (s.raise f).hist = s.hist ++ [.fault f] := rfl
@[simp] theorem State.raise_mem (f : ModelFault) (s : State) : (s.raise f).mem = s.mem := rfl
@[simp] theorem State.raise_hostData (f : ModelFault) (s : State) : (s.raise f).hostData = s.hostData := rfl
@[simp] theorem State.raise_env (f : ModelFault) (s : State) : (s.raise f).env = s.env := rfl

@[simp] theorem State.pwrite_cfg (r : PReg) (v : Word) (s : State) : (s.pwrite r v).cfg = s.cfg := rfl
@[simp] theorem State.pwrite_phase (r : PReg) (v : Word) (s : State) : (s.pwrite r v).phase = s.phase := rfl
@[simp] theorem State.pwrite_cmd (r : PReg) (v : Word) (s : State) : (s.pwrite r v).cmd = s.cmd := rfl
@[simp] theorem State.pwrite_work (r : PReg) (v : Word) (s : State) : (s.pwrite r v).work = s.work := rfl
@[simp] theorem State.pwrite_res (r : PReg) (v : Word) (s : State) : (s.pwrite r v).res = s.res := rfl
@[simp] theorem State.pwrite_per (r : PReg) (v : Word) (s : State) : (s.pwrite r v).per = s.per.set r v := rfl
@[simp] theorem State.pwrite_clk (r : PReg) (v : Word) (s : State) : (s.pwrite r v).clk = s.clk := rfl
@[simp] theorem State.pwrite_mst (r : PReg) (v : Word) (s : State) : (s.pwrite r v).mst = s.mst := rfl
@[simp] theorem State.pwrite_trig (r : PReg) (v : Word) (s : State) : (s.pwrite r v).trig = s.trig := rfl
@[simp] theorem State.pwrite_faults (r : PReg) (v : Word) (s : State) : (s.pwrite r v).faults = s.faults := rfl
@[simp] theorem State.pwrite_hist (r : PReg) (v : Word) (s : State) : (s.pwrite r v).hist = s.hist ++ [.pWr r v] := rfl
@[simp] theorem State.pwrite_mem (r : PReg) (v : Word) (s : State) : (s.pwrite r v).mem = s.mem := rfl
@[simp] theorem State.pwrite_hostData (r : PReg) (v : Word) (s : State) : (s.pwrite r v).hostData = s.hostData := rfl
@[simp] theorem State.pwrite_env (r : PReg) (v : Word) (s : State) : (s.pwrite r v).env = s.env := rfl

@[simp] theorem State.setStop_cfg (s : State) : (s.setStop).cfg = s.cfg := rfl
@[simp] theorem State.setStop_phase (s : State) : (s.setStop).phase = s.phase := rfl
@[simp] theorem State.setStop_cmd (s : State) : (s.setStop).cmd = s.cmd := rfl
@[simp] theorem State.setStop_work (s : State) : (s.setStop).work = s.work := rfl
@[simp] theorem State.setStop_res (s : State) : (s.setStop).res = s.res := rfl
@[simp] theorem State.setStop_per (s : State) : (s.setStop).per = { s.per with ctrl := s.per.ctrl ||| ctrlStopBit } := rfl
@[simp] theorem State.setStop_clk (s : State) : (s.setStop).clk = s.clk := rfl
@[simp] theorem State.setStop_mst (s : State) : (s.setStop).mst = s.mst := rfl
@[simp] theorem State.setStop_trig (s : State) : (s.setStop).trig = s.trig := rfl
@[simp] theorem State.setStop_faults (s : State) : (s.setStop).faults = s.faults := rfl
@[simp] theorem State.setStop_hist (s : State) : (s.setStop).hist = s.hist ++ [.pStop] := rfl
@[simp] theorem State.setStop_mem (s : State) : (s.setStop).mem = s.mem := rfl
@[simp] theorem State.setStop_hostData (s : State) : (s.setStop).hostData = s.hostData := rfl
@[simp] theorem State.setStop_env (s : State) : (s.setStop).env = s.env := rfl

@[simp] theorem State.memRead_cfg (a : Word) (s : State) : (s.memRead a).cfg = s.cfg := rfl
@[simp] theorem State.memRead_phase (a : Word) (s : State) : (s.memRead a).phase = s.phase := rfl
@[simp] theorem State.memRead_cmd (a : Word) (s : State) : (s.memRead a).cmd = s.cmd := rfl
@[simp] theorem State.memRead_work (a : Word) (s : State) : (s.memRead a).work = s.work := rfl
@[simp] theorem State.memRead_res (a : Word) (s : State) : (s.memRead a).res = s.res := rfl
@[simp] theorem State.memRead_per (a : Word) (s : State) : (s.memRead a).per = s.per := rfl
@[simp] theorem State.memRead_clk (a : Word) (s : State) : (s.memRead a).clk = s.clk := rfl
@[simp] theorem State.memRead_mst (a : Word) (s : State) : (s.memRead a).mst = s.mst := rfl
@[simp] theorem State.memRead_trig (a : Word) (s : State) : (s.memRead a).trig = s.trig := rfl
@[simp] theorem State.memRead_faults (a : Word) (s : State) : (s.memRead a).faults = s.faults := rfl
@[simp] theorem State.memRead_hist (a : Word) (s : State) : (s.memRead a).hist = s.hist ++ [.mRd a (s.memByte a)] := rfl
@[simp] theorem State.memRead_mem (a : Word) (s : State) : (s.memRead a).mem = s.mem := rfl
@[simp] theorem State.memRead_hostData (a : Word) (s : State) : (s.memRead a).hostData = s.hostData := rfl
@[simp] theorem State.memRead_env (a : Word) (s : State) : (s.memRead a).env = s.env := rfl

@[simp] theorem State.memWrite_cfg (a : Word) (v : Byte) (s : State) : (s.memWrite a v).cfg = s.cfg := rfl
@[simp] theorem State.memWrite_phase (a : Word) (v : Byte) (s : State) : (s.memWrite a v).phase = s.phase := rfl
@[simp] theorem State.memWrite_cmd (a : Word) (v : Byte) (s : State) : (s.memWrite a v).cmd = s.cmd := rfl
@[simp] theorem State.memWrite_work (a : Word) (v : Byte) (s : State) : (s.memWrite a v).work = s.work := rfl
@[simp] theorem State.memWrite_res (a : Word) (v : Byte) (s : State) : (s.memWrite a v).res = s.res := rfl
@[simp] theorem State.memWrite_per (a : Word) (v : Byte) (s : State) : (s.memWrite a v).per = s.per := rfl
@[simp] theorem State.memWrite_clk (a : Word) (v : Byte) (s : State) : (s.memWrite a v).clk = s.clk := rfl
@[simp] theorem State.memWrite_mst (a : Word) (v : Byte) (s : State) : (s.memWrite a v).mst = s.mst := rfl
@[simp] theorem State.memWrite_trig (a : Word) (v : Byte) (s : State) : (s.memWrite a v).trig = s.trig := rfl
@[simp] theorem State.memWrite_faults (a : Word) (v : Byte) (s : State) : (s.memWrite a v).faults = s.faults := rfl
@[simp] theorem State.memWrite_hist (a : Word) (v : Byte) (s : State) : (s.memWrite a v).hist = s.hist ++ [.mWr a v] := rfl
@[simp] theorem State.memWrite_mem (a : Word) (v : Byte) (s : State) : (s.memWrite a v).mem = Memory.write s.mem a.toNat v := rfl
@[simp] theorem State.memWrite_hostData (a : Word) (v : Byte) (s : State) : (s.memWrite a v).hostData = s.hostData := rfl
@[simp] theorem State.memWrite_env (a : Word) (v : Byte) (s : State) : (s.memWrite a v).env = s.env := rfl

@[simp] theorem State.clkRead_cfg (s : State) : (s.clkRead).cfg = s.cfg := rfl
@[simp] theorem State.clkRead_phase (s : State) : (s.clkRead).phase = s.phase := rfl
@[simp] theorem State.clkRead_cmd (s : State) : (s.clkRead).cmd = s.cmd := rfl
@[simp] theorem State.clkRead_work (s : State) : (s.clkRead).work = s.work := rfl
@[simp] theorem State.clkRead_res (s : State) : (s.clkRead).res = s.res := rfl
@[simp] theorem State.clkRead_per (s : State) : (s.clkRead).per = s.per := rfl
@[simp] theorem State.clkRead_clk (s : State) : (s.clkRead).clk = s.clk := rfl
@[simp] theorem State.clkRead_mst (s : State) : (s.clkRead).mst = s.mst := rfl
@[simp] theorem State.clkRead_trig (s : State) : (s.clkRead).trig = s.trig := rfl
@[simp] theorem State.clkRead_faults (s : State) : (s.clkRead).faults = s.faults := rfl
@[simp] theorem State.clkRead_hist (s : State) : (s.clkRead).hist = s.hist ++ [.clkRd s.clk.cnt] := rfl
@[simp] theorem State.clkRead_mem (s : State) : (s.clkRead).mem = s.mem := rfl
@[simp] theorem State.clkRead_hostData (s : State) : (s.clkRead).hostData = s.hostData := rfl
@[simp] theorem State.clkRead_env (s : State) : (s.clkRead).env = s.env := rfl

@[simp] theorem State.uifClear_cfg (s : State) : (s.uifClear).cfg = s.cfg := rfl
@[simp] theorem State.uifClear_phase (s : State) : (s.uifClear).phase = s.phase := rfl
@[simp] theorem State.uifClear_cmd (s : State) : (s.uifClear).cmd = s.cmd := rfl
@[simp] theorem State.uifClear_work (s : State) : (s.uifClear).work = s.work := rfl
@[simp] theorem State.uifClear_res (s : State) : (s.uifClear).res = s.res := rfl
@[simp] theorem State.uifClear_per (s : State) : (s.uifClear).per = s.per := rfl
@[simp] theorem State.uifClear_clk (s : State) : (s.uifClear).clk = { s.clk with uif := false } := rfl
@[simp] theorem State.uifClear_mst (s : State) : (s.uifClear).mst = s.mst := rfl
@[simp] theorem State.uifClear_trig (s : State) : (s.uifClear).trig = s.trig := rfl
@[simp] theorem State.uifClear_faults (s : State) : (s.uifClear).faults = s.faults := rfl
@[simp] theorem State.uifClear_hist (s : State) : (s.uifClear).hist = s.hist ++ [.uifClr] := rfl
@[simp] theorem State.uifClear_mem (s : State) : (s.uifClear).mem = s.mem := rfl
@[simp] theorem State.uifClear_hostData (s : State) : (s.uifClear).hostData = s.hostData := rfl
@[simp] theorem State.uifClear_env (s : State) : (s.uifClear).env = s.env := rfl

@[simp] theorem State.mstArm_cfg (s : State) : (s.mstArm).cfg = s.cfg := rfl
@[simp] theorem State.mstArm_phase (s : State) : (s.mstArm).phase = s.phase := rfl
@[simp] theorem State.mstArm_cmd (s : State) : (s.mstArm).cmd = s.cmd := rfl
@[simp] theorem State.mstArm_work (s : State) : (s.mstArm).work = s.work := rfl
@[simp] theorem State.mstArm_res (s : State) : (s.mstArm).res = s.res := rfl
@[simp] theorem State.mstArm_per (s : State) : (s.mstArm).per = s.per := rfl
@[simp] theorem State.mstArm_clk (s : State) : (s.mstArm).clk = s.clk := rfl
@[simp] theorem State.mstArm_mst (s : State) : (s.mstArm).mst = { armed := true, done := false } := rfl
@[simp] theorem State.mstArm_trig (s : State) : (s.mstArm).trig = s.trig := rfl
@[simp] theorem State.mstArm_faults (s : State) : (s.mstArm).faults = s.faults := rfl
@[simp] theorem State.mstArm_hist (s : State) : (s.mstArm).hist = s.hist ++ [.msArm] := rfl
@[simp] theorem State.mstArm_mem (s : State) : (s.mstArm).mem = s.mem := rfl
@[simp] theorem State.mstArm_hostData (s : State) : (s.mstArm).hostData = s.hostData := rfl
@[simp] theorem State.mstArm_env (s : State) : (s.mstArm).env = s.env := rfl

@[simp] theorem State.drive_cfg (l : Bool) (s : State) : (s.drive l).cfg = s.cfg := rfl
@[simp] theorem State.drive_phase (l : Bool) (s : State) : (s.drive l).phase = s.phase := rfl
@[simp] theorem State.drive_cmd (l : Bool) (s : State) : (s.drive l).cmd = s.cmd := rfl
@[simp] theorem State.drive_work (l : Bool) (s : State) : (s.drive l).work = s.work := rfl
@[simp] theorem State.drive_res (l : Bool) (s : State) : (s.drive l).res = s.res := rfl
@[simp] theorem State.drive_per (l : Bool) (s : State) : (s.drive l).per = s.per := rfl
@[simp] theorem State.drive_clk (l : Bool) (s : State) : (s.drive l).clk = s.clk := rfl
@[simp] theorem State.drive_mst (l : Bool) (s : State) : (s.drive l).mst = s.mst := rfl
@[simp] theorem State.drive_trig (l : Bool) (s : State) : (s.drive l).trig = l := rfl
@[simp] theorem State.drive_faults (l : Bool) (s : State) : (s.drive l).faults = s.faults := rfl
@[simp] theorem State.drive_hist (l : Bool) (s : State) : (s.drive l).hist = s.hist ++ [.trigWr l] := rfl
@[simp] theorem State.drive_mem (l : Bool) (s : State) : (s.drive l).mem = s.mem := rfl
@[simp] theorem State.drive_hostData (l : Bool) (s : State) : (s.drive l).hostData = s.hostData := rfl
@[simp] theorem State.drive_env (l : Bool) (s : State) : (s.drive l).env = s.env := rfl

@[simp] theorem State.abort_cfg (e : Code) (s : State) : (s.abort e).cfg = s.cfg := rfl
@[simp] theorem State.abort_phase (e : Code) (s : State) : (s.abort e).phase = .i2AbStop := rfl
@[simp] theorem State.abort_cmd (e : Code) (s : State) : (s.abort e).cmd = s.cmd := rfl
@[simp] theorem State.abort_work (e : Code) (s : State) : (s.abort e).work = { s.work with err := e } := rfl
@[simp] theorem State.abort_res (e : Code) (s : State) : (s.abort e).res = s.res := rfl
@[simp] theorem State.abort_per (e : Code) (s : State) : (s.abort e).per = s.per := rfl
@[simp] theorem State.abort_clk (e : Code) (s : State) : (s.abort e).clk = s.clk := rfl
@[simp] theorem State.abort_mst (e : Code) (s : State) : (s.abort e).mst = s.mst := rfl
@[simp] theorem State.abort_trig (e : Code) (s : State) : (s.abort e).trig = s.trig := rfl
@[simp] theorem State.abort_faults (e : Code) (s : State) : (s.abort e).faults = s.faults := rfl
@[simp] theorem State.abort_hist (e : Code) (s : State) : (s.abort e).hist = s.hist := rfl
@[simp] theorem State.abort_mem (e : Code) (s : State) : (s.abort e).mem = s.mem := rfl
@[simp] theorem State.abort_hostData (e : Code) (s : State) : (s.abort e).hostData = s.hostData := rfl
@[simp] theorem State.abort_env (e : Code) (s : State) : (s.abort e).env = s.env := rfl

@[simp] theorem State.enterDelayUs_cfg (n : Word) (r : Ret) (s : State) : (s.enterDelayUs n r).cfg = s.cfg := rfl
@[simp] theorem State.enterDelayUs_phase (n : Word) (r : Ret) (s : State) : (s.enterDelayUs n r).phase = .duEntry := rfl
@[simp] theorem State.enterDelayUs_cmd (n : Word) (r : Ret) (s : State) : (s.enterDelayUs n r).cmd = s.cmd := rfl
@[simp] theorem State.enterDelayUs_work (n : Word) (r : Ret) (s : State) : (s.enterDelayUs n r).work = { s.work with drem := n, ret := r } := rfl
@[simp] theorem State.enterDelayUs_res (n : Word) (r : Ret) (s : State) : (s.enterDelayUs n r).res = s.res := rfl
@[simp] theorem State.enterDelayUs_per (n : Word) (r : Ret) (s : State) : (s.enterDelayUs n r).per = s.per := rfl
@[simp] theorem State.enterDelayUs_clk (n : Word) (r : Ret) (s : State) : (s.enterDelayUs n r).clk = s.clk := rfl
@[simp] theorem State.enterDelayUs_mst (n : Word) (r : Ret) (s : State) : (s.enterDelayUs n r).mst = s.mst := rfl
@[simp] theorem State.enterDelayUs_trig (n : Word) (r : Ret) (s : State) : (s.enterDelayUs n r).trig = s.trig := rfl
@[simp] theorem State.enterDelayUs_faults (n : Word) (r : Ret) (s : State) : (s.enterDelayUs n r).faults = s.faults := rfl
@[simp] theorem State.enterDelayUs_hist (n : Word) (r : Ret) (s : State) : (s.enterDelayUs n r).hist = s.hist := rfl
@[simp] theorem State.enterDelayUs_mem (n : Word) (r : Ret) (s : State) : (s.enterDelayUs n r).mem = s.mem := rfl
@[simp] theorem State.enterDelayUs_hostData (n : Word) (r : Ret) (s : State) : (s.enterDelayUs n r).hostData = s.hostData := rfl
@[simp] theorem State.enterDelayUs_env (n : Word) (r : Ret) (s : State) : (s.enterDelayUs n r).env = s.env := rfl

@[simp] theorem State.enterDelayMs_cfg (n : Word) (r : Ret) (s : State) : (s.enterDelayMs n r).cfg = s.cfg := rfl
@[simp] theorem State.enterDelayMs_phase (n : Word) (r : Ret) (s : State) : (s.enterDelayMs n r).phase = .dmArm := rfl
@[simp] theorem State.enterDelayMs_cmd (n : Word) (r : Ret) (s : State) : (s.enterDelayMs n r).cmd = s.cmd := rfl
@[simp] theorem State.enterDelayMs_work (n : Word) (r : Ret) (s : State) : (s.enterDelayMs n r).work = { s.work with mrem := n, ret := r } := rfl
@[simp] theorem State.enterDelayMs_res (n : Word) (r : Ret) (s : State) : (s.enterDelayMs n r).res = s.res := rfl
@[simp] theorem State.enterDelayMs_per (n : Word) (r : Ret) (s : State) : (s.enterDelayMs n r).per = s.per := rfl
@[simp] theorem State.enterDelayMs_clk (n : Word) (r : Ret) (s : State) : (s.enterDelayMs n r).clk = s.clk := rfl
@[simp] theorem State.enterDelayMs_mst (n : Word) (r : Ret) (s : State) : (s.enterDelayMs n r).mst = s.mst := rfl
@[simp] theorem State.enterDelayMs_trig (n : Word) (r : Ret) (s : State) : (s.enterDelayMs n r).trig = s.trig := rfl
@[simp] theorem State.enterDelayMs_faults (n : Word) (r : Ret) (s : State) : (s.enterDelayMs n r).faults = s.faults := rfl
@[simp] theorem State.enterDelayMs_hist (n : Word) (r : Ret) (s : State) : (s.enterDelayMs n r).hist = s.hist := rfl
@[simp] theorem State.enterDelayMs_mem (n : Word) (r : Ret) (s : State) : (s.enterDelayMs n r).mem = s.mem := rfl
@[simp] theorem State.enterDelayMs_hostData (n : Word) (r : Ret) (s : State) : (s.enterDelayMs n r).hostData = s.hostData := rfl
@[simp] theorem State.enterDelayMs_env (n : Word) (r : Ret) (s : State) : (s.enterDelayMs n r).env = s.env := rfl

@[simp] theorem State.tick_cfg (s : State) : (s.tick).cfg = s.cfg := rfl
@[simp] theorem State.tick_phase (s : State) : (s.tick).phase = s.phase := rfl
@[simp] theorem State.tick_cmd (s : State) : (s.tick).cmd = s.cmd := rfl
@[simp] theorem State.tick_work (s : State) : (s.tick).work = s.work := rfl
@[simp] theorem State.tick_res (s : State) : (s.tick).res = s.res := rfl
@[simp] theorem State.tick_per (s : State) : (s.tick).per = s.per := rfl
@[simp] theorem State.tick_clk (s : State) : (s.tick).clk = { s.clk with cnt := nextCnt s.cfg s.clk.cnt, uif := true } := rfl
@[simp] theorem State.tick_mst (s : State) : (s.tick).mst = s.mst := rfl
@[simp] theorem State.tick_trig (s : State) : (s.tick).trig = s.trig := rfl
@[simp] theorem State.tick_faults (s : State) : (s.tick).faults = s.faults := rfl
@[simp] theorem State.tick_hist (s : State) : (s.tick).hist = s.hist ++ [.tick] := rfl
@[simp] theorem State.tick_mem (s : State) : (s.tick).mem = s.mem := rfl
@[simp] theorem State.tick_hostData (s : State) : (s.tick).hostData = s.hostData := rfl
@[simp] theorem State.tick_env (s : State) : (s.tick).env = s.env := rfl

@[simp] theorem State.msExpire_cfg (s : State) : (s.msExpire).cfg = s.cfg := rfl
@[simp] theorem State.msExpire_phase (s : State) : (s.msExpire).phase = s.phase := rfl
@[simp] theorem State.msExpire_cmd (s : State) : (s.msExpire).cmd = s.cmd := rfl
@[simp] theorem State.msExpire_work (s : State) : (s.msExpire).work = s.work := rfl
@[simp] theorem State.msExpire_res (s : State) : (s.msExpire).res = s.res := rfl
@[simp] theorem State.msExpire_per (s : State) : (s.msExpire).per = s.per := rfl
@[simp] theorem State.msExpire_clk (s : State) : (s.msExpire).clk = s.clk := rfl
@[simp] theorem State.msExpire_mst (s : State) : (s.msExpire).mst = { armed := false, done := true } := rfl
@[simp] theorem State.msExpire_trig (s : State) : (s.msExpire).trig = s.trig := rfl
@[simp] theorem State.msExpire_faults (s : State) : (s.msExpire).faults = s.faults := rfl
@[simp] theorem State.msExpire_hist (s : State) : (s.msExpire).hist = s.hist ++ [.msExpire] := rfl
@[simp] theorem State.msExpire_mem (s : State) : (s.msExpire).mem = s.mem := rfl
@[simp] theorem State.msExpire_hostData (s : State) : (s.msExpire).hostData = s.hostData := rfl
@[simp] theorem State.msExpire_env (s : State) : (s.msExpire).env = s.env := rfl

@[simp] theorem State.latch_cfg (d : Desc) (s : State) : (s.latch d).cfg = s.cfg := rfl
@[simp] theorem State.latch_phase (d : Desc) (s : State) : (s.latch d).phase = .decode := rfl
@[simp] theorem State.latch_cmd (d : Desc) (s : State) : (s.latch d).cmd = Cmd.ofDesc d := rfl
@[simp] theorem State.latch_work (d : Desc) (s : State) : (s.latch d).work = s.work := rfl
@[simp] theorem State.latch_res (d : Desc) (s : State) : (s.latch d).res = s.res := rfl
@[simp] theorem State.latch_per (d : Desc) (s : State) : (s.latch d).per = s.per := rfl
@[simp] theorem State.latch_clk (d : Desc) (s : State) : (s.latch d).clk = s.clk := rfl
@[simp] theorem State.latch_mst (d : Desc) (s : State) : (s.latch d).mst = s.mst := rfl
@[simp] theorem State.latch_trig (d : Desc) (s : State) : (s.latch d).trig = s.trig := rfl
@[simp] theorem State.latch_faults (d : Desc) (s : State) : (s.latch d).faults = s.faults := rfl
@[simp] theorem State.latch_hist (d : Desc) (s : State) : (s.latch d).hist = s.hist := rfl
@[simp] theorem State.latch_mem (d : Desc) (s : State) : (s.latch d).mem = s.mem := rfl
@[simp] theorem State.latch_hostData (d : Desc) (s : State) : (s.latch d).hostData = s.hostData := rfl
@[simp] theorem State.latch_env (d : Desc) (s : State) : (s.latch d).env = s.env := rfl

@[simp] theorem State.dropDraw_cfg (s : State) : s.dropDraw.cfg = s.cfg := by unfold State.dropDraw; split <;> rfl
@[simp] theorem State.dropDraw_phase (s : State) : s.dropDraw.phase = s.phase := by unfold State.dropDraw; split <;> rfl
@[simp] theorem State.dropDraw_cmd (s : State) : s.dropDraw.cmd = s.cmd := by unfold State.dropDraw; split <;> rfl
@[simp] theorem State.dropDraw_work (s : State) : s.dropDraw.work = s.work := by unfold State.dropDraw; split <;> rfl
@[simp] theorem State.dropDraw_res (s : State) : s.dropDraw.res = s.res := by unfold State.dropDraw; split <;> rfl
@[simp] theorem State.dropDraw_per (s : State) : s.dropDraw.per = s.per := by unfold State.dropDraw; split <;> rfl
@[simp] theorem State.dropDraw_clk (s : State) : s.dropDraw.clk = s.clk := by unfold State.dropDraw; split <;> rfl
@[simp] theorem State.dropDraw_mst (s : State) : s.dropDraw.mst = s.mst := by unfold State.dropDraw; split <;> rfl
@[simp] theorem State.dropDraw_trig (s : State) : s.dropDraw.trig = s.trig := by unfold State.dropDraw; split <;> rfl
@[simp] theorem State.dropDraw_faults (s : State) : s.dropDraw.faults = s.faults := by unfold State.dropDraw; split <;> rfl
@[simp] theorem State.dropDraw_hist (s : State) : s.dropDraw.hist = s.hist := by unfold State.dropDraw; split <;> rfl
@[simp] theorem State.dropDraw_mem (s : State) : s.dropDraw.mem = s.mem := by unfold State.dropDraw; split <;> rfl
@[simp] theorem State.dropDraw_hostData (s : State) : s.dropDraw.hostData = s.hostData := by unfold State.dropDraw; split <;> rfl

@[simp] theorem State.dropMove_cfg (s : State) : s.dropMove.cfg = s.cfg := by unfold State.dropMove; split <;> rfl
@[simp] theorem State.dropMove_phase (s : State) : s.dropMove.phase = s.phase := by unfold State.dropMove; split <;> rfl
@[simp] theorem State.dropMove_cmd (s : State) : s.dropMove.cmd = s.cmd := by unfold State.dropMove; split <;> rfl
@[simp] theorem State.dropMove_work (s : State) : s.dropMove.work = s.work := by unfold State.dropMove; split <;> rfl
@[simp] theorem State.dropMove_res (s : State) : s.dropMove.res = s.res := by unfold State.dropMove; split <;> rfl
@[simp] theorem State.dropMove_per (s : State) : s.dropMove.per = s.per := by unfold State.dropMove; split <;> rfl
@[simp] theorem State.dropMove_clk (s : State) : s.dropMove.clk = s.clk := by unfold State.dropMove; split <;> rfl
@[simp] theorem State.dropMove_mst (s : State) : s.dropMove.mst = s.mst := by unfold State.dropMove; split <;> rfl
@[simp] theorem State.dropMove_trig (s : State) : s.dropMove.trig = s.trig := by unfold State.dropMove; split <;> rfl
@[simp] theorem State.dropMove_faults (s : State) : s.dropMove.faults = s.faults := by unfold State.dropMove; split <;> rfl
@[simp] theorem State.dropMove_hist (s : State) : s.dropMove.hist = s.hist := by unfold State.dropMove; split <;> rfl
@[simp] theorem State.dropMove_mem (s : State) : s.dropMove.mem = s.mem := by unfold State.dropMove; split <;> rfl
@[simp] theorem State.dropMove_hostData (s : State) : s.dropMove.hostData = s.hostData := by unfold State.dropMove; split <;> rfl

@[simp] theorem State.pread_cfg (r : PReg) (s : State) : (s.pread r).cfg = s.cfg := by simp [State.pread]
@[simp] theorem State.pread_phase (r : PReg) (s : State) : (s.pread r).phase = s.phase := by simp [State.pread]
@[simp] theorem State.pread_cmd (r : PReg) (s : State) : (s.pread r).cmd = s.cmd := by simp [State.pread]
@[simp] theorem State.pread_work (r : PReg) (s : State) : (s.pread r).work = s.work := by simp [State.pread]
@[simp] theorem State.pread_res (r : PReg) (s : State) : (s.pread r).res = s.res := by simp [State.pread]
@[simp] theorem State.pread_clk (r : PReg) (s : State) : (s.pread r).clk = s.clk := by simp [State.pread]
@[simp] theorem State.pread_mst (r : PReg) (s : State) : (s.pread r).mst = s.mst := by simp [State.pread]
@[simp] theorem State.pread_trig (r : PReg) (s : State) : (s.pread r).trig = s.trig := by simp [State.pread]
@[simp] theorem State.pread_faults (r : PReg) (s : State) : (s.pread r).faults = s.faults := by simp [State.pread]
@[simp] theorem State.pread_mem (r : PReg) (s : State) : (s.pread r).mem = s.mem := by simp [State.pread]
@[simp] theorem State.pread_hostData (r : PReg) (s : State) : (s.pread r).hostData = s.hostData := by simp [State.pread]
@[simp] theorem State.pread_per (r : PReg) (s : State) : (s.pread r).per = s.per.set r s.preadValue := rfl
@[simp] theorem State.pread_hist (r : PReg) (s : State) : (s.pread r).hist = s.hist ++ [.pRd r s.preadValue] := rfl
@[simp] theorem State.pread_env (r : PReg) (s : State) : (s.pread r).env = s.dropDraw.env := rfl

@[simp] theorem State.echoSample_cfg (s : State) : s.echoSample.cfg = s.cfg := by simp [State.echoSample]
@[simp] theorem State.echoSample_phase (s : State) : s.echoSample.phase = s.phase := by simp [State.echoSample]
@[simp] theorem State.echoSample_cmd (s : State) : s.echoSample.cmd = s.cmd := by simp [State.echoSample]
@[simp] theorem State.echoSample_work (s : State) : s.echoSample.work = s.work := by simp [State.echoSample]
@[simp] theorem State.echoSample_res (s : State) : s.echoSample.res = s.res := by simp [State.echoSample]
@[simp] theorem State.echoSample_per (s : State) : s.echoSample.per = s.per := by simp [State.echoSample]
@[simp] theorem State.echoSample_clk (s : State) : s.echoSample.clk = s.clk := by simp [State.echoSample]
@[simp] theorem State.echoSample_mst (s : State) : s.echoSample.mst = s.mst := by simp [State.echoSample]
@[simp] theorem State.echoSample_trig (s : State) : s.echoSample.trig = s.trig := by simp [State.echoSample]
@[simp] theorem State.echoSample_faults (s : State) : s.echoSample.faults = s.faults := by simp [State.echoSample]
@[simp] theorem State.echoSample_mem (s : State) : s.echoSample.mem = s.mem := by simp [State.echoSample]
@[simp] theorem State.echoSample_hostData (s : State) : s.echoSample.hostData = s.hostData := by simp [State.echoSample]
@[simp] theorem State.echoSample_hist (s : State) : s.echoSample.hist = s.hist ++ [.echoRd s.echoLevel] := rfl
@[simp] theorem State.echoSample_env (s : State) : s.echoSample.env = s.dropDraw.env := rfl

@[simp] theorem State.goto_cfg (p : Phase) (s : State) : (s.goto p).cfg = s.cfg := by unfold State.goto; split <;> rfl
@[simp] theorem State.goto_cmd (p : Phase) (s : State) : (s.goto p).cmd = s.cmd := by unfold State.goto; split <;> rfl
@[simp] theorem State.goto_res (p : Phase) (s : State) : (s.goto p).res = s.res := by unfold State.goto; split <;> rfl
@[simp] theorem State.goto_per (p : Phase) (s : State) : (s.goto p).per = s.per := by unfold State.goto; split <;> rfl
@[simp] theorem State.goto_clk (p : Phase) (s : State) : (s.goto p).clk = s.clk := by unfold State.goto; split <;> rfl
@[simp] theorem State.goto_mst (p : Phase) (s : State) : (s.goto p).mst = s.mst := by unfold State.goto; split <;> rfl
@[simp] theorem State.goto_trig (p : Phase) (s : State) : (s.goto p).trig = s.trig := by unfold State.goto; split <;> rfl
@[simp] theorem State.goto_faults (p : Phase) (s : State) : (s.goto p).faults = s.faults := by unfold State.goto; split <;> rfl
@[simp] theorem State.goto_hist (p : Phase) (s : State) : (s.goto p).hist = s.hist := by unfold State.goto; split <;> rfl
@[simp] theorem State.goto_mem (p : Phase) (s : State) : (s.goto p).mem = s.mem := by unfold State.goto; split <;> rfl
@[simp] theorem State.goto_hostData (p : Phase) (s : State) : (s.goto p).hostData = s.hostData := by unfold State.goto; split <;> rfl
@[simp] theorem State.goto_env (p : Phase) (s : State) : (s.goto p).env = s.env := by unfold State.goto; split <;> rfl
@[simp] theorem State.goto_phase (p : Phase) (s : State) : (s.goto p).phase = p := by unfold State.goto; split <;> rfl

/-- `goto` changes no working register but `POLLS`, which it clears exactly when it enters a poll phase from another phase. -/
theorem State.goto_work (p : Phase) (s : State) :
    (s.goto p).work = if p.isPoll && p != s.phase then { s.work with polls := 0 } else s.work := by
  unfold State.goto; split <;> rfl

end Sys2Proof.Machine
end

