-- ==== Sys2Proof/Laws/Ops.lean ====
section
/-! SUPPORT. What each shared operation can do, said once: the wait step, the abort, the delay phases, and SEQ's turn. -/

namespace Sys2Proof.Machine

/-- The state after one more poll of the wait that did not succeed. -/
def State.polled (s : State) : State := { s.pread .status with work.polls := s.work.polls + 1 }

/-- A poll of a wait succeeds, or spins (`BASELINE`), or fails the wait, or leaves it with polls left (41_i2c R140). -/
theorem State.waitStep_cases {w : Wait} {n : Phase} {s : State} (h : s.phase = w.phase) :
    (w.holds s.preadValue = true ∧ s.waitStep w n = (s.pread .status).goto n) ∨
    (w.holds s.preadValue = false ∧ s.cfg.mode = .baseline ∧ s.waitStep w n = s.pread .status) ∨
    (w.holds s.preadValue = false ∧ s.cfg.mode = .bounded ∧ s.work.polls + 1 = s.cfg.pollLimit ∧
      s.waitStep w n = s.polled.waitFail w) ∨
    (w.holds s.preadValue = false ∧ s.cfg.mode = .bounded ∧ s.work.polls + 1 ≠ s.cfg.pollLimit ∧
      s.waitStep w n = s.polled) := by
  have stay : ∀ u : State, u.phase = w.phase → u.goto w.phase = u := by
    intro u hu
    unfold State.goto
    rw [← hu]; simp
  unfold State.waitStep
  cases hv : w.holds s.preadValue <;> cases hm : s.cfg.mode <;> simp only [Bool.false_eq_true, if_false, if_true]
  · split
    · exact .inr (.inr (.inl ⟨trivial, trivial, ‹_›, rfl⟩))
    · refine .inr (.inr (.inr ⟨trivial, trivial, ‹_›, ?_⟩))
      rw [stay]
      · rfl
      · simp [h]
  · refine .inr (.inl ⟨trivial, trivial, ?_⟩)
    rw [stay]; simp [h]
  · exact .inl ⟨trivial, trivial⟩
  · exact .inl ⟨trivial, trivial⟩

/-- The end of a delay: the command completes, or the caller goes on (40_clock R123). -/
theorem State.delayReturn_cases (s : State) :
    (s.work.ret = .done ∧ s.delayReturn = s.complete 0) ∨ (∃ p, s.work.ret = .back p ∧ s.delayReturn = s.goto p) := by
  unfold State.delayReturn
  cases h : s.work.ret with
  | done => exact .inl ⟨rfl, rfl⟩
  | back p => exact .inr ⟨p, rfl, rfl⟩

/-- SEQ's turn: it passes after SEQ's own fault or in `IDLE`; else it decodes, or makes a step of the command in `C_OP`. -/
theorem State.seqStep_cases {s : State} {r : Result} (h : s.seqStep = r) :
    (s.seqFaulted = true ∧ r = .next s) ∨
    (s.seqFaulted = false ∧ s.phase = .idle ∧ r = .next s) ∨
    (s.seqFaulted = false ∧ s.phase = .decode ∧ r = s.decodeStep) ∨
    (s.seqFaulted = false ∧ s.phase ≠ .idle ∧ s.phase ≠ .decode ∧ r = s.phaseStep) := by
  unfold State.seqStep at h
  split at h
  · exact .inl ⟨‹_›, h.symm⟩
  · have nf : s.seqFaulted = false := by simpa using ‹¬s.seqFaulted = true›
    split at h
    · exact .inr (.inl ⟨nf, ‹_›, h.symm⟩)
    · exact .inr (.inr (.inl ⟨nf, ‹_›, h.symm⟩))
    · exact .inr (.inr (.inr ⟨nf, by assumption, by assumption, h.symm⟩))

/-- The abort's poll ends at `STOPF` or at the last poll, else it polls on; the error is as it was (41_i2c R142). -/
theorem State.abortPoll_cases (s : State) :
    (StatusWord.stopf s.preadValue = true ∧ s.abortPoll = { s.pread .status with phase := .i2AbClear }) ∨
    (StatusWord.stopf s.preadValue = false ∧ s.work.polls + 1 = s.cfg.pollLimit ∧
      s.abortPoll = { s.polled with phase := .i2AbClear }) ∨
    (StatusWord.stopf s.preadValue = false ∧ s.work.polls + 1 ≠ s.cfg.pollLimit ∧
      s.abortPoll = { s.polled with phase := .i2AbPoll }) := by
  unfold State.abortPoll
  cases StatusWord.stopf s.preadValue
  · by_cases h : s.work.polls + 1 = s.cfg.pollLimit
    · exact .inr (.inl ⟨rfl, h, by simp only [h, if_true]; simp [State.polled, h]⟩)
    · exact .inr (.inr ⟨rfl, h, by simp [h, State.polled]⟩)
  · exact .inl ⟨rfl, by simp⟩

/-- The entry of `DELAY_US` returns at once or clears the flag and waits (40_clock R123). -/
theorem State.duEntry_cases (s : State) :
    (s.work.drem = 0 ∧ s.duEntry = s.delayReturn) ∨ (s.work.drem ≠ 0 ∧ s.duEntry = { s.uifClear with phase := .duWait }) := by
  unfold State.duEntry; split
  · exact .inl ⟨‹_›, rfl⟩
  · exact .inr ⟨‹_›, rfl⟩

/-- The wait of `DELAY_US` fires when the flag is set, else it holds (40_clock R123). -/
theorem State.duWait_cases (s : State) :
    (s.clk.uif = true ∧ s.duWait = { s.emit .uifRd with phase := .duClear }) ∨ (s.clk.uif = false ∧ s.duWait = s) := by
  unfold State.duWait; split
  · exact .inl ⟨‹_›, rfl⟩
  · exact .inr ⟨by simpa using ‹¬s.clk.uif = true›, rfl⟩

/-- The clear of `DELAY_US` counts the wait; the last one returns (40_clock R123). -/
theorem State.duClear_cases (s : State) :
    (s.work.drem - 1 = 0 ∧ s.duClear = State.delayReturn { s.uifClear with work.drem := s.work.drem - 1 }) ∨
    (s.work.drem - 1 ≠ 0 ∧ s.duClear = { s.uifClear with work.drem := s.work.drem - 1, phase := .duWait }) := by
  unfold State.duClear; split
  · exact .inl ⟨‹_›, rfl⟩
  · exact .inr ⟨‹_›, rfl⟩

/-- The arming of `DELAY_MS` returns when nothing is left, else it arms and waits (40_clock R125). -/
theorem State.dmArm_cases (s : State) :
    (s.work.mrem = 0 ∧ s.dmArm = s.delayReturn) ∨ (s.work.mrem ≠ 0 ∧ s.dmArm = { s.mstArm with phase := .dmWait }) := by
  unfold State.dmArm; split
  · exact .inl ⟨‹_›, rfl⟩
  · exact .inr ⟨‹_›, rfl⟩

/-- The wait of `DELAY_MS` fires when the timer is done, else it holds (40_clock R125). -/
theorem State.dmWait_cases (s : State) :
    (s.mst.done = true ∧ s.dmWait = { s.emit .msDoneRd with work.mrem := s.work.mrem - 1, phase := .dmArm }) ∨
    (s.mst.done = false ∧ s.dmWait = s) := by
  unfold State.dmWait; split
  · exact .inl ⟨‹_›, rfl⟩
  · exact .inr ⟨by simpa using ‹¬s.mst.done = true›, rfl⟩

/-- A fetch that answers a next state read an admitted byte (41_i2c R147, 20_memory R69). -/
theorem State.txFetch_next {buf : Word} {s t : State} (h : s.txFetch buf = .next t) :
    s.admitted (bufferAddress buf s.work.idx) = true ∧
    t = { s.memRead (bufferAddress buf s.work.idx) with
            work.byte := s.memByte (bufferAddress buf s.work.idx), phase := .i2TxWrite } := by
  unfold State.txFetch at h; split at h
  · exact ⟨‹_›, (Host.Outcome.next.inj h).symm⟩
  · cases h

/-- A store that answers a next state wrote an admitted byte (41_i2c R150, 20_memory R69). -/
theorem State.rxStore_next {count : Byte} {buf : Word} {s t : State} (h : s.rxStore count buf = .next t) :
    s.admitted (bufferAddress buf s.work.idx) = true ∧
    t = State.goto (if s.work.idx + 1 < count.setWidth 9 then .i2RxPoll else .i2StopfPoll)
      { s.memWrite (bufferAddress buf s.work.idx) s.work.byte with work.idx := s.work.idx + 1 } := by
  unfold State.rxStore at h; split at h
  · exact ⟨‹_›, (Host.Outcome.next.inj h).symm⟩
  · cases h

/-- What HOST's issue can do (60_exceptions R224). -/
theorem State.issue_cases (d : Desc) (s : State) :
    (s.phase = .idle ∧ s.issue d = (s.emit (.issue d)).latch d) ∨ (s.phase ≠ .idle ∧ s.issue d = s.raise (.reentrant d)) := by
  unfold State.issue State.busy
  by_cases h : s.phase = .idle <;> simp [h]

/-- A HOST read that answers a next state returned a value or raised `UNWRITTEN_READ` (60_exceptions R226). -/
theorem State.hostRead_next {r : Nat} {s t : State} (h : s.hostRead r = .next t) :
    r ≤ 5 ∧ ((∃ v, s.hostRegister r = some v ∧ t = { s with hostData := v }) ∨
      (s.hostRegister r = none ∧ t = s.raise (.unwrittenRead r))) := by
  unfold State.hostRead at h
  split at h
  · cases h
  · refine ⟨by omega, ?_⟩
    split at h
    · exact .inl ⟨_, ‹_›, (Host.Outcome.next.inj h).symm⟩
    · exact .inr ⟨‹_›, (Host.Outcome.next.inj h).symm⟩

/-- A HOST store that answers a next state happened while SEQ was idle (60_exceptions R224). -/
theorem State.hostStore_next {a : Word} {v : Byte} {s t : State} (h : s.hostStore a v = .next t) :
    s.phase = .idle ∧ t = { s with mem := Memory.write s.mem a.toNat v } := by
  unfold State.hostStore State.busy at h
  split at h
  · cases h
  · exact ⟨by simpa using ‹¬(s.phase != Phase.idle) = true›, (Host.Outcome.next.inj h).symm⟩

/-- Everything a move that answers a next state can be: SEQ's step, a tick, an expiry, an issue, a read, a store, or a turn that
passes (00_scope R6). -/
theorem State.act_next {m : Move} {s t : State} (h : s.act m = .next t) :
    (m = .seq ∧ s.seqStep = .next t) ∨
    (m = .tick ∧ s.clk.run = true ∧ t = s.tick) ∨
    (m = .msExpire ∧ s.mst.armed = true ∧ t = s.msExpire) ∨
    (∃ d, m = .hostIssue d ∧ s.hostFaulted = false ∧ t = s.issue d) ∨
    (∃ r, m = .hostRead r ∧ s.hostFaulted = false ∧ s.hostRead r = .next t) ∨
    (∃ a v, m = .hostStore a v ∧ s.hostFaulted = false ∧ s.hostStore a v = .next t) ∨
    (m ≠ .seq ∧ t = s) := by
  have host : ∀ act : State → Result, s.hostStep act = .next t → (s.hostFaulted = false ∧ act s = .next t) ∨ t = s := by
    intro act e
    unfold State.hostStep at e
    split at e
    · exact .inr (Host.Outcome.next.inj e).symm
    · exact .inl ⟨by simpa using ‹¬s.hostFaulted = true›, e⟩
  cases m with
  | seq => exact .inl ⟨rfl, h⟩
  | tick =>
      simp only [State.act, Host.Outcome.next.injEq] at h
      split at h
      · exact .inr (.inl ⟨rfl, ‹_›, h.symm⟩)
      · exact .inr (.inr (.inr (.inr (.inr (.inr ⟨by simp, h.symm⟩)))))
  | msExpire =>
      simp only [State.act, Host.Outcome.next.injEq] at h
      split at h
      · exact .inr (.inr (.inl ⟨rfl, ‹_›, h.symm⟩))
      · exact .inr (.inr (.inr (.inr (.inr (.inr ⟨by simp, h.symm⟩)))))
  | hostIssue d =>
      rcases host (fun u => .next (u.issue d)) h with ⟨f, e⟩ | e
      · exact .inr (.inr (.inr (.inl ⟨d, rfl, f, (Host.Outcome.next.inj e).symm⟩)))
      · exact .inr (.inr (.inr (.inr (.inr (.inr ⟨by simp, e⟩)))))
  | hostRead r =>
      rcases host _ h with ⟨f, e⟩ | e
      · exact .inr (.inr (.inr (.inr (.inl ⟨r, rfl, f, e⟩))))
      · exact .inr (.inr (.inr (.inr (.inr (.inr ⟨by simp, e⟩)))))
  | hostWrite r v =>
      rcases host _ h with ⟨_, e⟩ | e
      · unfold State.hostWrite at e; split at e <;> cases e
      · exact .inr (.inr (.inr (.inr (.inr (.inr ⟨by simp, e⟩)))))
  | hostReadCmd =>
      rcases host (fun _ => .refused .hostCommandPortWriteOnly) h with ⟨_, e⟩ | e
      · cases e
      · exact .inr (.inr (.inr (.inr (.inr (.inr ⟨by simp, e⟩)))))
  | hostStore a v =>
      rcases host _ h with ⟨f, e⟩ | e
      · exact .inr (.inr (.inr (.inr (.inr (.inl ⟨a, v, rfl, f, e⟩)))))
      · exact .inr (.inr (.inr (.inr (.inr (.inr ⟨by simp, e⟩)))))

/-- A step of the machine is one agent's move, made in the state whose next move is taken. -/
theorem State.machineStep_eq (s : State) : s.machineStep = s.dropMove.act s.move := rfl

end Sys2Proof.Machine
end

