-- ==== Sys2Proof/Laws/PerInstr.lean ====
section
/-! SUPPORT. The per-instruction family RowMatch: the encoder writes the row's fixed bits (30_encoding R93). -/

namespace Sys2Proof.Laws.RowMatch

/-- The encoder's descriptor has the bits of its row: `OP`, and zeros in the reserved bits and the unused fields. -/
def Statement (i : Instr) : Prop := encode i &&& i.mnemonic.maskWord = i.mnemonic.matchWord

/-- A mask given by its fields acts field by field. -/
theorem make_and (op o : BitVec 4) (addr a : Addr7) (data d count c : Byte) (arg g : Word) (r : BitVec 1) (q : BitVec 4) :
    Desc.make op addr data count arg &&& (g ++ q ++ c ++ d ++ r ++ a ++ o : BitVec 64) =
      Desc.make (op &&& o) (addr &&& a) (data &&& d) (count &&& c) (arg &&& g) := by
  have z1 : (0 : BitVec 1) &&& r = 0 := BitVec.zero_and
  have z4 : (0 : BitVec 4) &&& q = 0 := BitVec.zero_and
  unfold Desc.make
  refine BitVec.and_append.trans (congrArg (· ++ (op &&& o)) ?_)
  refine BitVec.and_append.trans (congrArg (· ++ (addr &&& a)) ?_)
  refine BitVec.and_append.trans (congr (congrArg HAppend.hAppend ?_) z1)
  refine BitVec.and_append.trans (congrArg (· ++ (data &&& d)) ?_)
  refine BitVec.and_append.trans (congrArg (· ++ (count &&& c)) ?_)
  exact BitVec.and_append.trans (congrArg ((arg &&& g) ++ ·) z4)

/-- A field under an empty mask. -/
theorem masked_out {w : Nat} (x : BitVec w) : x &&& 0 = 0 := BitVec.and_zero

theorem initClock : Statement .initClock := by unfold Statement; decide

theorem clockNow : Statement .clockNow := by unfold Statement; decide

/-- The mask of a row that uses `ARG` alone. -/
theorem arg_mask : (0x00000000FFFFFFFF : Desc) =
    ((0 : BitVec 32) ++ (0xF : BitVec 4) ++ (0xFF : BitVec 8) ++ (0xFF : BitVec 8) ++ (1 : BitVec 1) ++ (0x7F : BitVec 7)
      ++ (0xF : BitVec 4) : BitVec 64) := by decide

theorem delayUs (n : Word) : Statement (.delayUs n) := by
  show Desc.make 0x3 0 0 0 n &&& 0x00000000FFFFFFFF = 0x0000000000000003
  rw [arg_mask, make_and, masked_out]; decide

theorem delayMs (n : Word) : Statement (.delayMs n) := by
  show Desc.make 0x4 0 0 0 n &&& 0x00000000FFFFFFFF = 0x0000000000000004
  rw [arg_mask, make_and, masked_out]; decide

theorem measure (timeout : Word) : Statement (.measure timeout) := by
  show Desc.make 0x8 0 0 0 timeout &&& 0x00000000FFFFFFFF = 0x0000000000000008
  rw [arg_mask, make_and, masked_out]; decide

theorem i2cWriteByte (addr : Addr7) (data : Byte) : Statement (.i2cWriteByte addr data) := by
  show Desc.make 0x5 addr data 0 0 &&& 0xFFFFFFFFFFF0080F = 0x0000000000000005
  rw [show (0xFFFFFFFFFFF0080F : Desc) =
    ((0xFFFFFFFF : BitVec 32) ++ (0xF : BitVec 4) ++ (0xFF : BitVec 8) ++ (0 : BitVec 8) ++ (1 : BitVec 1) ++ (0 : BitVec 7)
      ++ (0xF : BitVec 4) : BitVec 64) by decide, make_and, masked_out, masked_out]; decide

theorem i2cWriteBytes (addr : Addr7) (count : Byte) (buf : Word) : Statement (.i2cWriteBytes addr count buf) := by
  show Desc.make 0x6 addr 0 count buf &&& 0x00000000F00FF80F = 0x0000000000000006
  rw [show (0x00000000F00FF80F : Desc) =
    ((0 : BitVec 32) ++ (0xF : BitVec 4) ++ (0 : BitVec 8) ++ (0xFF : BitVec 8) ++ (1 : BitVec 1) ++ (0 : BitVec 7)
      ++ (0xF : BitVec 4) : BitVec 64) by decide, make_and, masked_out, masked_out, masked_out]; decide

theorem i2cReadBytes (addr : Addr7) (reg count : Byte) (buf : Word) : Statement (.i2cReadBytes addr reg count buf) := by
  show Desc.make 0x7 addr reg count buf &&& 0x00000000F000080F = 0x0000000000000007
  rw [show (0x00000000F000080F : Desc) =
    ((0 : BitVec 32) ++ (0xF : BitVec 4) ++ (0 : BitVec 8) ++ (0 : BitVec 8) ++ (1 : BitVec 1) ++ (0 : BitVec 7)
      ++ (0xF : BitVec 4) : BitVec 64) by decide, make_and, masked_out, masked_out, masked_out,
    masked_out]; decide

end Sys2Proof.Laws.RowMatch
end

