-- ==== Sys2Proof/Tests/Slice0.lean ====
section
/-! SUPPORT. The model's own tests. Expected values are the spec's: its encodings, its worked examples and its tables, named at each
test. Then a witness for the hypotheses of every obligation that has some. -/

namespace Sys2Proof.Tests

open Machine

/-! ### Well-formedness (30_encoding R102, 00_scope R7): each check refuses a term -/

theorem test_wf_address : (AsmLine.i2cWriteByte 128 0).wellFormed = false ∧ (AsmLine.i2cWriteByte 127 255).wellFormed = true := by
  decide

theorem test_wf_byte : (AsmLine.i2cWriteByte 0 256).wellFormed = false ∧ (AsmLine.i2cReadBytes 0 256 0 0).wellFormed = false := by
  decide

theorem test_wf_count : (AsmLine.i2cWriteBytes 0 256 0).wellFormed = false ∧ (AsmLine.i2cReadBytes 0 0 256 0).wellFormed = false := by
  decide

theorem test_wf_argument :
    (AsmLine.delayUs 0x100000000).wellFormed = false ∧ (AsmLine.delayMs 0x100000000).wellFormed = false ∧
    (AsmLine.measure 0x100000000).wellFormed = false ∧ (AsmLine.i2cWriteBytes 0 0 0x100000000).wellFormed = false ∧
    (AsmLine.measure 0xFFFFFFFF).wellFormed = true := by
  decide

/-- Parameters for tests: `BOUNDED`, two polls, a 16-bit counter, a settle of one expiry, and 4 admitted bytes that wrap. -/
def cfg : Config where
  mode := .bounded
  pollLimit := 2
  clkW := 16
  settleMs := 1
  hmem := [{ base := 0xFFFFFFFE, size := 4 }]
  i2cBase := 0

theorem test_wf_config :
    cfg.wellFormed = true ∧ { cfg with pollLimit := 0 }.wellFormed = false ∧ { cfg with clkW := 0 }.wellFormed = false ∧
    { cfg with clkW := 33 }.wellFormed = false := by
  decide

/-! ### Decoding: words written out from 30_encoding R90 and R92 -/

theorem test_decode_init_clock : decode 0x0000000000000001 = .ok .initClock := by decide

theorem test_decode_clock_now : decode 0x0000000000000002 = .ok .clockNow := by decide

theorem test_decode_delay_us : decode 0x0000000A00000003 = .ok (.delayUs 10) := by decide

theorem test_decode_delay_ms : decode 0x000003E800000004 = .ok (.delayMs 1000) := by decide

/-- Bits: ARG 0, COUNT 0, DATA 0xAE, RSV_A 0, ADDR 0x3C, OP 5. -/
theorem test_decode_write_byte :
    decode ((0#32 ++ 0#4 ++ 0#8 ++ 0b10101110#8 ++ 0#1 ++ 0b0111100#7 ++ 0b0101#4 : BitVec 64)) = .ok (.i2cWriteByte 0x3C 0xAE) := by
  decide

theorem test_decode_write_bytes : decode 0x20000000002003C6 = .ok (.i2cWriteBytes 0x3C 2 0x20000000) := by decide

/-- Bits: ARG 0x20000100, COUNT 2, DATA 0x75, RSV_A 0, ADDR 0x68, OP 7. -/
theorem test_decode_read_bytes :
    decode ((0x20000100#32 ++ 0#4 ++ 0b00000010#8 ++ 0b01110101#8 ++ 0#1 ++ 0b1101000#7 ++ 0b0111#4 : BitVec 64))
      = .ok (.i2cReadBytes 0x68 0x75 2 0x20000100) := by
  decide

theorem test_decode_measure : decode 0x00061A8000000008 = .ok (.measure 400000) := by decide

/-- 30_encoding R94: a reserved opcode, each reserved field, an unused field. -/
theorem test_decode_illegal :
    decode 0 = .error (.reservedOpcode 0) ∧ decode 0x9 = .error (.reservedOpcode 9) ∧ decode 0xF = .error (.reservedOpcode 15) ∧
    decode 0x805 = .error .reservedBit ∧ decode 0x10000003 = .error .reservedBit ∧ decode 0x11 = .error .unusedField ∧
    decode 0x1006 = .error .unusedField ∧ decode 0x100005 = .error .unusedField := by
  decide

/-- 30_encoding R102, with the descriptor of 41_i2c R145. -/
theorem test_assemble :
    Asm.assembleText "i2c.write_byte 0x3C, 0xAE ; off".toList = .ok (some 0x00000000000AE3C5) ∧
    Asm.assembleText "i2c.write_byte 128, 0".toList = .error .outOfRange := by
  decide

/-! ### Register words and operations -/

/-- 30_encoding R97's examples. -/
theorem test_ctrl_word :
    ctrlWord 0x3C 1 false false = 0x00020178 ∧ ctrlWord 0x68 1 false false = 0x000201D0 ∧ ctrlWord 0x68 2 true true = 0x000B02D0 := by
  decide

/-- 30_encoding R98: 0x3C is 0x78 on the wire for a write, 0x79 for a read. -/
theorem test_wire_byte :
    wireAddressByte (ctrlWord 0x3C 1 false false) = 0x78 ∧ wireAddressByte (ctrlWord 0x3C 1 true true) = 0x79 := by
  decide

/-- 42_ranger R184's values. -/
theorem test_distance :
    distance 57 = 0 ∧ distance 58 = 1 ∧ distance 115 = 1 ∧ distance 116 = 2 ∧ distance 580 = 10 ∧ distance 0xFFFFFFFF = 74051160 := by
  decide

/-- 20_memory R61: the buffer at 0xFFFFFFFF wraps to 0. -/
theorem test_buffer_wraps : bufferAddress 0xFFFFFFFF 0 = 0xFFFFFFFF ∧ bufferAddress 0xFFFFFFFF 1 = 0 := by decide

/-- The canonical form: rising addresses, and a zero byte is not listed. -/
theorem test_memory :
    Memory.write (Memory.write [] 7 3) 2 1 = [(2, 1), (7, 3)] ∧ Memory.write [(2, 1), (7, 3)] 2 0 = [(7, 3)] ∧
    Memory.read [(2, 1), (7, 3)] 7 = 3 := by
  decide

/-! ### One step of each instruction -/

/-- A state for tests: command `i` latched, SEQ at phase `p`, the moves `ms` and the draws `ds` pending. -/
def stateAt (i : Instr) (p : Phase) (ms : List Move) (ds : List Draw) : State where
  cfg := cfg
  phase := p
  cmd := Cmd.ofDesc (encode i)
  work := { idx := 0, polls := 0, err := 0, byte := 0, ecnt := 0, dur := 0, val := false, ekind := 0, drem := 0, mrem := 0, ret := .done }
  res := { status := 0, statusWritten := false, value := 0, valueWritten := false, rngValid := false, rngDuration := 0,
           rngDistance := 0, rngWritten := false }
  per := { ctrl := 0, status := 0, clear := 0, txdr := 0, rxdr := 0 }
  clk := { cnt := 0xFFFF, uif := false, run := true }
  mst := { armed := false, done := false }
  trig := true
  faults := { reentrant := none, clockReinit := false, unwrittenRead := none }
  hist := []
  mem := [(0, 0xAF), (0xFFFFFFFF, 0x12)]
  hostData := 0
  env := { moves := ms, moveCount := 0, draws := ds, drawCount := 0 }

/-- A draw whose word is `v`. -/
def word (v : Word) : Draw := { word := v, bit := false }

/-- A draw of echo level `l`. -/
def level (l : Bool) : Draw := { word := 0, bit := l }

/-- A property of the next state; false if there is none. -/
def nextHas (p : State → Bool) (r : Result) : Bool :=
  match r with
  | .next t => p t
  | .fault _ => false
  | .refused _ => false

/-- 40_clock R121: from `RUN = 0`, `RUN = 1`, the drawn `CNT` cut to 16 bits, OK. -/
theorem test_init_clock :
    nextHas (fun t => t.clk == { cnt := 0x2345, uif := true, run := true } && t.res.status == 0 && t.hist == [.clkInit, .complete 0])
      (exec .initClock { stateAt .initClock .ckInit [] [{ word := 0x12345, bit := true }] with clk.run := false }) = true := by
  decide

/-- 40_clock R121: a second `init_clock` raises `CLOCK_REINIT` and does not complete. -/
theorem test_init_clock_again :
    nextHas (fun t => t.faults.clockReinit && t.phase == .ckInit && t.hist == [.fault .clockReinit])
      (exec .initClock (stateAt .initClock .ckInit [] [])) = true := by
  decide

/-- 40_clock R122: `CLK_W = 16`, `CNT = 0xFFFF`, one tick later `clock_now` gives 0. -/
theorem test_clock_now :
    nextHas (fun t => t.res.value == 0 && t.res.valueWritten && t.res.status == 0)
      (exec .clockNow (stateAt .clockNow .ckNow [] []).tick) = true := by
  decide

/-- 40_clock R123: the entry clears a flag left set from before. -/
theorem test_delay_us_entry :
    nextHas (fun t => t.phase == .duWait && !t.clk.uif && t.hist == [.uifClr])
      (exec (.delayUs 3) { stateAt (.delayUs 3) .duEntry [] [] with work.drem := 3, clk.uif := true }) = true := by
  decide

/-- 40_clock R123: `DREM = 0` returns at once with no access. -/
theorem test_delay_us_zero :
    nextHas (fun t => t.phase == .idle && t.hist == [.complete 0]) (exec (.delayUs 0) (stateAt (.delayUs 0) .duEntry [] [])) = true := by
  decide

/-- 40_clock R125: arming sets `MS_ARMED` and clears `MS_DONE`. -/
theorem test_delay_ms_arm :
    nextHas (fun t => t.phase == .dmWait && t.mst == { armed := true, done := false } && t.hist == [.msArm])
      (exec (.delayMs 2) { stateAt (.delayMs 2) .dmArm [] [] with work.mrem := 2, mst.done := true }) = true := by
  decide

/-- 41_i2c R145's example: `TXDR` is written 0x000000AE. -/
theorem test_write_byte_txdr :
    nextHas (fun t => t.hist == [.pWr .txdr 0x000000AE] && t.phase == .i2TcPoll)
      (exec (.i2cWriteByte 0x3C 0xAE) (stateAt (.i2cWriteByte 0x3C 0xAE) .i2TxWrite [] [])) = true := by
  decide

/-- 41_i2c R140: the second of two ready polls fails, and aborts with `NO_ACK`. -/
theorem test_write_byte_no_ack :
    nextHas (fun t => t.phase == .i2AbStop && t.work.err == 2)
      (exec (.i2cWriteByte 0x3C 0xAE) { stateAt (.i2cWriteByte 0x3C 0xAE) .i2TxPoll [] [word 0x1D] with work.polls := 1 }) = true := by
  decide

/-- 41_i2c R147: a buffer at 0xFFFFFFFF with two bytes reads 0x00000000 second. -/
theorem test_write_bytes_wrap :
    nextHas (fun t => t.hist == [.mRd 0 0xAF] && t.work.byte == 0xAF)
      (exec (.i2cWriteBytes 0x3C 2 0xFFFFFFFF) { stateAt (.i2cWriteBytes 0x3C 2 0xFFFFFFFF) .i2TxFetch [] [] with work.idx := 1 }) = true := by
  decide

/-- 41_i2c R147: `COUNT = 0` programs `NBYTES = 0` and goes to the transfer-complete wait. -/
theorem test_write_bytes_none :
    nextHas (fun t => t.phase == .i2TcPoll && t.hist == [.pWr .ctrl 0x00020078])
      (exec (.i2cWriteBytes 0x3C 0 0) (stateAt (.i2cWriteBytes 0x3C 0 0) .i2Start [] [])) = true := by
  decide

/-- 41_i2c R150: the restart reads 2 bytes with STOP on completion (30_encoding R97's word). -/
theorem test_read_bytes_restart :
    nextHas (fun t => t.phase == .i2RxPoll && t.hist == [.pWr .ctrl 0x000B02D0])
      (exec (.i2cReadBytes 0x68 0x75 2 0) (stateAt (.i2cReadBytes 0x68 0x75 2 0) .i2Restart [] [])) = true := by
  decide

/-- 41_i2c R150: the last byte is stored and the STOP wait follows; 20_memory R69: 0x00000002 is not admitted. -/
theorem test_read_bytes_store :
    exec (.i2cReadBytes 0 0 1 2) (stateAt (.i2cReadBytes 0 0 1 2) .i2RxStore [] []) = .fault (.hmemNotAdmitted 2) ∧
    nextHas (fun t => t.phase == .i2StopfPoll && Memory.read t.mem 1 == 0x5A && Memory.read t.mem 0 == 0xAF)
      (exec (.i2cReadBytes 0x68 0x75 2 0)
        { stateAt (.i2cReadBytes 0x68 0x75 2 0) .i2RxStore [] [] with work.idx := 1, work.byte := 0x5A }) = true := ⟨rfl, by decide⟩

/-- 42_ranger R183: with `T = 0` a first high sample in Phase B is a fall timeout, with the sentinel. -/
theorem test_measure_fall :
    nextHas (fun t => t.phase == .dmArm && t.work.ekind == 5 && !t.work.val && t.work.dur == 0 && t.work.mrem == 1)
      (exec (.measure 0) (stateAt (.measure 0) .rgBSample [] [level true])) = true := by
  decide

/-- 42_ranger R181's example: duration 1160 gives distance 20 at the last step. -/
theorem test_measure_settle :
    nextHas (fun t => t.res.rngValid && t.res.rngDuration == 1160 && t.res.rngDistance == 20 && t.res.status == 0)
      (exec (.measure 400000) { stateAt (.measure 400000) .rgSettle [] [] with work.val := true, work.dur := 1160 }) = true := by
  decide

/-- 60_exceptions R224: an issue while busy is `REENTRANT`, recorded with the descriptor. -/
theorem test_reentrant :
    nextHas (fun t => t.faults.reentrant == some 0x1 && t.phase == .ckNow && t.cmd.op == 2)
      (step (stateAt .clockNow .ckNow [.hostIssue 0x1] [])) = true := by
  decide

/-! ### Witnesses: the hypotheses of each obligation are met together -/

/-- `k` steps from `s`; `s` itself if one of them stops. -/
def runTo (k : Nat) (s : State) : State :=
  match Sys2Proof.core.run k s with
  | .next t => t
  | .fault _ => s
  | .refused _ => s

/-- The run of `k` steps goes through and HOST issues nothing. -/
def quiet (k : Nat) (s : State) : Bool :=
  match Sys2Proof.core.run k s with
  | .next t => t.hist.all (fun e => match e with
      | .issue _ => false
      | _ => true)
  | .fault _ => false
  | .refused _ => false

theorem runOf_quiet {k : Nat} {s : State} (q : quiet k s = true) (e : s.hist = []) : RunOf k s (runTo k s) (runTo k s).hist := by
  have go : ∀ (r : Result), Sys2Proof.core.run k s = r → RunOf k s (runTo k s) (runTo k s).hist := by
    intro r hr
    cases r with
    | next t =>
        have ht : runTo k s = t := by unfold runTo; rw [hr]
        have q' : t.hist.all (fun e => match e with
            | .issue _ => false
            | _ => true) = true := by unfold quiet at q; rw [hr] at q; exact q
        rw [ht]
        refine ⟨hr, by simp [e], ?_⟩
        intro d hd
        have := List.all_eq_true.mp q' _ hd
        simp at this
    | fault x => unfold quiet at q; rw [hr] at q; exact absurd q (by simp)
    | refused x => unfold quiet at q; rw [hr] at q; exact absurd q (by simp)
  exact go _ rfl

theorem starts_at (i : Instr) (ms : List Move) (ds : List Draw) (h : decode (encode i) = .ok i) : (stateAt i .decode ms ds).Starts i :=
  ⟨rfl, rfl, h⟩

/-- EncodeDecode, RowsSelect: a legal descriptor, and one that matches a row. -/
theorem witness_decode :
    decode 0x00000000000AE3C5 = .ok (.i2cWriteByte 0x3C 0xAE) ∧
    (0x00000000000AE3C5 : Desc) &&& Mnemonic.i2cWriteByte.maskWord = Mnemonic.i2cWriteByte.matchWord := by
  decide

/-- AssembleFits: the last address that fits and the first that does not. -/
theorem witness_assemble :
    (AsmLine.i2cWriteByte 127 255).assemble = some (.i2cWriteByte 127 255) ∧ (AsmLine.i2cWriteByte 128 255).assemble = none ∧
    (AsmLine.delayUs 0xFFFFFFFF).assemble = some (.delayUs 0xFFFFFFFF) ∧ (AsmLine.measure 0x100000000).assemble = none := by
  decide

/-- IllegalDescriptor, DecodeFirstPhase: an illegal descriptor at `DECODE`. -/
theorem witness_illegal :
    let s := { stateAt .clockNow .decode [] [] with cmd := Cmd.ofDesc 0x9 }
    s.phase = .decode ∧ s.faults.clockReinit = false ∧ ∀ m : Mnemonic, s.cmd.desc &&& m.maskWord ≠ m.matchWord := by
  refine ⟨rfl, rfl, ?_⟩
  intro m; cases m <;> decide

/-- DecodeFirstPhase, StepRunsDecoded (its first clause): a legal command at `DECODE`, SEQ's turn. -/
theorem witness_decode_turn :
    let s := stateAt (.measure 5) .decode [.seq] []
    s.move = .seq ∧ s.faults.clockReinit = false ∧ s.phase = .decode ∧ decode s.cmd.desc = .ok (.measure 5) := by
  decide

/-- StepRunsDecoded, second clause: a later phase of a latched command. -/
theorem witness_later_turn :
    let s := stateAt (.measure 5) .rgASample [.seq] []
    s.move = .seq ∧ s.faults.clockReinit = false ∧ s.phase ≠ .idle ∧ s.phase ≠ .decode ∧ s.cmd = Cmd.ofDesc s.cmd.desc ∧
      decode s.cmd.desc = .ok (.measure 5) := by
  decide

/-- StepRunsDecoded, third clause: a table word. -/
theorem witness_table_word : decodeTableWord 64 0x1 = some .initClock := by decide

/-- HostMoves: an issue when idle and when busy, a store when idle and when busy, and a HOST move that answers a next state. -/
theorem witness_host_moves :
    (let s := stateAt .clockNow .idle [.hostIssue 0x1] []
     s.move = .hostIssue 0x1 ∧ s.hostFaulted = false ∧ s.phase = .idle ∧ nextHas (fun _ => true) (step s) = true) ∧
    (let s := stateAt .clockNow .ckNow [.hostIssue 0x1] []
     s.move = .hostIssue 0x1 ∧ s.hostFaulted = false ∧ s.phase ≠ .idle) ∧
    (let s := stateAt .clockNow .idle [.hostStore 0xFFFFFFFF 3] []
     s.move = .hostStore 0xFFFFFFFF 3 ∧ s.hostFaulted = false ∧ s.phase = .idle) ∧
    (let s := stateAt .clockNow .ckNow [.hostStore 0xFFFFFFFF 3] []
     s.move = .hostStore 0xFFFFFFFF 3 ∧ s.hostFaulted = false ∧ s.phase ≠ .idle) := by
  decide

/-- HostReads: register 0, registers 1 to 5 holding a value, register 1 holding none, and a step that leaves SEQ busy. -/
theorem witness_host_reads :
    (let s := stateAt .clockNow .idle [.hostRead 0] []
     s.move = .hostRead 0 ∧ s.hostFaulted = false) ∧
    (let s := { stateAt .clockNow .idle [.hostRead 1] [] with res.statusWritten := true }
     s.move = .hostRead 1 ∧ s.hostFaulted = false ∧ s.res.statusWritten = true) ∧
    (let s := { stateAt .clockNow .idle [.hostRead 2] [] with res.valueWritten := true }
     s.move = .hostRead 2 ∧ s.hostFaulted = false ∧ s.res.valueWritten = true) ∧
    (∀ r ∈ [3, 4, 5], let s := { stateAt .clockNow .idle [.hostRead r] [] with res.rngWritten := true }
     s.move = .hostRead r ∧ s.hostFaulted = false ∧ r ≤ 5 ∧ s.res.rngWritten = true) ∧
    (let s := stateAt .clockNow .idle [.hostRead 1] []
     s.move = .hostRead 1 ∧ s.hostFaulted = false ∧ s.res.statusWritten = false) ∧
    nextHas (fun t => t.phase != .idle) (step (stateAt .clockNow .decode [.seq] [])) = true := by
  decide

/-- HostRefusals: the first number that does not exist, the last register, the command port. -/
theorem witness_host_refusals :
    (stateAt .clockNow .idle [.hostRead 6] []).move = .hostRead 6 ∧ (stateAt .clockNow .idle [.hostWrite 5 1] []).move = .hostWrite 5 1 ∧
    (stateAt .clockNow .idle [.hostReadCmd] []).move = .hostReadCmd ∧ (stateAt .clockNow .idle [.hostReadCmd] []).hostFaulted = false := by
  decide

/-- TickStep, ExpiryStep: each timer on and off at its turn. -/
theorem witness_timers :
    (stateAt .clockNow .idle [.tick] []).move = .tick ∧ (stateAt .clockNow .idle [.tick] []).clk.run = true ∧
    { stateAt .clockNow .idle [.tick] [] with clk.run := false }.move = .tick ∧
    { stateAt .clockNow .idle [.msExpire] [] with mst.armed := true }.move = .msExpire ∧
    (stateAt .clockNow .idle [.msExpire] []).move = .msExpire ∧ (stateAt .clockNow .idle [.msExpire] []).mst.armed = false := by
  decide

/-- InitClock, ClockNow: a stopped and a running counter at `CK_INIT`, and a counter at the top of its width at `CK_NOW`. -/
theorem witness_clock :
    (let s := { stateAt .initClock .ckInit [] [] with clk.run := false }
     s.phase = .ckInit ∧ s.clk.run = false) ∧
    ((stateAt .initClock .ckInit [] []).phase = .ckInit ∧ (stateAt .initClock .ckInit [] []).clk.run = true) ∧
    nextHas (fun _ => true) (exec .initClock { stateAt .initClock .ckInit [] [word 0] with clk.run := false }) = true ∧
    nextHas (fun _ => true) (exec .clockNow (stateAt .clockNow .ckNow [] [])) = true ∧
    (stateAt .clockNow .ckNow [] []).clk.cnt.toNat < 2 ^ (stateAt .clockNow .ckNow [] []).cfg.clkW := by
  decide

/-- DelayUsSteps: each phase with each of its conditions. -/
theorem witness_delay_us_steps :
    (let s := stateAt (.delayUs 0) .duEntry [] []
     s.phase = .duEntry ∧ s.work.drem = 0 ∧ s.work.ret = .done) ∧
    (let s := { stateAt (.delayUs 2) .duEntry [] [] with work.drem := 0xFFFFFFFF }
     s.phase = .duEntry ∧ s.work.drem ≠ 0) ∧
    (let s := { stateAt (.delayUs 2) .duWait [] [] with clk.uif := true }
     s.phase = .duWait ∧ s.clk.uif = true) ∧
    (let s := stateAt (.delayUs 2) .duWait [] []
     s.phase = .duWait ∧ s.clk.uif = false) ∧
    (let s := { stateAt (.delayUs 2) .duClear [] [] with work.drem := 2 }
     s.phase = .duClear ∧ s.work.drem ≠ 1) ∧
    (let s := { stateAt (.delayUs 2) .duClear [] [] with work.drem := 1 }
     s.phase = .duClear ∧ s.work.drem = 1 ∧ s.work.ret = .done) := by
  decide

/-- DelayMsSteps: each phase with each of its conditions. -/
theorem witness_delay_ms_steps :
    (let s := stateAt (.delayMs 0) .dmArm [] []
     s.phase = .dmArm ∧ s.work.mrem = 0 ∧ s.work.ret = .done) ∧
    (let s := { stateAt (.delayMs 1) .dmArm [] [] with work.mrem := 1 }
     s.phase = .dmArm ∧ s.work.mrem ≠ 0) ∧
    (let s := { stateAt (.delayMs 1) .dmWait [] [] with mst.done := true }
     s.phase = .dmWait ∧ s.mst.done = true) ∧
    (let s := stateAt (.delayMs 1) .dmWait [] []
     s.phase = .dmWait ∧ s.mst.done = false) := by
  decide

/-- DelaysOnSchedule: one wait of each delay, on its schedule. -/
theorem witness_schedule :
    (let s := stateAt (.delayUs 1) .decode [.seq, .seq, .tick, .seq, .seq] []
     s.Starts (.delayUs 1) ∧ s.faults.clockReinit = false ∧ s.clk.run = true ∧ s.cfg.wellFormed = true ∧
     s.clk.cnt.toNat < 2 ^ s.cfg.clkW ∧ s.env.moves = [.seq, .seq] ++ (List.replicate 1 [Move.tick, .seq, .seq]).flatten ++ []) ∧
    (let s := stateAt (.delayMs 1) .decode [.seq, .seq, .msExpire, .seq, .seq] []
     s.Starts (.delayMs 1) ∧ s.faults.clockReinit = false ∧
     s.env.moves = [.seq] ++ (List.replicate 1 [Move.seq, .msExpire, .seq]).flatten ++ [.seq] ++ []) :=
  ⟨⟨starts_at _ _ _ (by decide), rfl, rfl, by decide, by decide, rfl⟩, ⟨starts_at _ _ _ (by decide), rfl, rfl⟩⟩

/-- DelayUsTicks, StatusesLegal: a completed delay of one tick. -/
theorem witness_delay_us_run :
    let s := stateAt (.delayUs 1) .decode [.seq, .seq, .tick, .seq, .seq] []
    s.Starts (.delayUs 1) ∧ (1 : Word) ≠ 0 ∧ RunOf 5 s (runTo 5 s) (runTo 5 s).hist ∧ .complete 0 ∈ (runTo 5 s).hist :=
  ⟨starts_at _ _ _ (by decide), by decide, runOf_quiet (by decide) rfl, by decide⟩

/-- DelayMsExpiries: a completed delay of one millisecond. -/
theorem witness_delay_ms_run :
    let s := stateAt (.delayMs 1) .decode [.seq, .seq, .msExpire, .seq, .seq] []
    s.Starts (.delayMs 1) ∧ s.mst.armed = false ∧ RunOf 5 s (runTo 5 s) (runTo 5 s).hist ∧ .complete 0 ∈ (runTo 5 s).hist :=
  ⟨starts_at _ _ _ (by decide), rfl, runOf_quiet (by decide) rfl, by decide⟩

/-- DelayUsStuck, its first clause: a wait of each command while the counter stands still. -/
theorem witness_stuck (i : Instr) (hi : i = .delayUs 1 ∨ i = .measure 1) :
    let s := { stateAt i .duWait [.seq, .tick] [] with clk.run := false }
    s.phase = .duWait ∧ s.clk.uif = false ∧ s.clk.run = false ∧ s.cmd.instr = some i ∧ RunOf 2 s (runTo 2 s) (runTo 2 s).hist := by
  rcases hi with rfl | rfl
  · exact ⟨rfl, rfl, rfl, by decide, runOf_quiet (by decide) rfl⟩
  · exact ⟨rfl, rfl, rfl, by decide, runOf_quiet (by decide) rfl⟩

/-- DelayUsStuck, its other clauses: 95_test_vectors RN18's `measure 10` with `RUN = 0`, and its delay alone; the accesses are the
vector's. -/
theorem witness_stuck_issue :
    (let s := { stateAt (.delayUs 1) .decode (List.replicate 5 .seq) [] with clk.run := false }
     (1 : Word) ≠ 0 ∧ s.Starts (.delayUs 1) ∧ s.clk.run = false ∧ RunOf 5 s (runTo 5 s) (runTo 5 s).hist ∧
       (runTo 5 s).hist = [.uifClr]) ∧
    (let s := { stateAt (.measure 10) .decode (List.replicate 5 .seq) [] with clk.run := false }
     s.Starts (.measure 10) ∧ s.clk.run = false ∧ RunOf 5 s (runTo 5 s) (runTo 5 s).hist ∧
       (runTo 5 s).hist = [.trigWr false, .uifClr]) :=
  ⟨⟨by decide, ⟨rfl, rfl, by decide⟩, rfl, runOf_quiet (by decide) rfl, by decide⟩,
   ⟨⟨rfl, rfl, by decide⟩, rfl, runOf_quiet (by decide) rfl, by decide⟩⟩

/-- The choices of a fair environment: SEQ, CLK and MST move in turn, and the echo stays low. -/
def fairEnv (n : Nat) : Env where
  moves := if n % 3 = 0 then [.seq] else if n % 3 = 1 then [.tick] else [.msExpire]
  moveCount := 0
  draws := [level false]
  drawCount := 0

/-- The run from `s` under `fairEnv`; it stands still at a stop. -/
def fairRun (s : State) : Nat → State
  | 0 => s
  | n + 1 =>
      match step ((fairRun s n).under (fairEnv n)) with
      | .next t => t
      | .fault _ => fairRun s n
      | .refused _ => fairRun s n

/-- The next `k` steps under `fairEnv`, from its step `n` on, all go through, and SEQ is idle after them. -/
def endsIdle (k n : Nat) (s : State) : Bool :=
  match k with
  | 0 => s.phase == .idle
  | k + 1 => nextHas (endsIdle k (n + 1)) (step (s.under (fairEnv n)))

theorem fairRun_succ {s t : State} {n : Nat} (h : step ((fairRun s n).under (fairEnv n)) = .next t) : fairRun s (n + 1) = t := by
  show (match step ((fairRun s n).under (fairEnv n)) with
    | .next t => t
    | .fault _ => fairRun s n
    | .refused _ => fairRun s n) = t
  rw [h]

theorem nextHas_next {p : State → Bool} {r : Result} (h : nextHas p r = true) : ∃ t, r = .next t ∧ p t = true := by
  cases r with
  | next t => exact ⟨t, rfl, h⟩
  | fault _ => exact absurd h (by simp [nextHas])
  | refused _ => exact absurd h (by simp [nextHas])

/-- An idle SEQ stays idle under `fairEnv`, and no step stops. -/
theorem fair_idle {s : State} (n : Nat) (h : s.phase = .idle) : ∃ t, step (s.under (fairEnv n)) = .next t ∧ t.phase = .idle := by
  unfold step State.machineStep State.move State.dropMove State.under fairEnv
  rcases (by omega : n % 3 = 0 ∨ n % 3 = 1 ∨ n % 3 = 2) with e | e | e <;>
    simp only [e, if_true, if_false, one_ne_zero, OfNat.ofNat_ne_zero, OfNat.ofNat_ne_one, State.act, State.seqStep, h] <;> split <;>
    exact ⟨_, rfl, rfl⟩

/-- Every step of the run under `fairEnv` goes through, if the first `k` do and SEQ is idle then. -/
theorem fairRun_isRun {k : Nat} {s : State} (q : endsIdle k 0 s = true) : IsRun (fairRun s) fairEnv := by
  have go : ∀ (k n : Nat), endsIdle k n (fairRun s n) = true → ∀ j, n ≤ j →
      ∃ t, step ((fairRun s j).under (fairEnv j)) = .next t := by
    intro k
    induction k with
    | zero =>
        intro n q j hj
        have idle : (fairRun s j).phase = .idle := by
          induction j, hj using Nat.le_induction with
          | base => simpa [endsIdle] using q
          | succ j _ ih => obtain ⟨t, h, hp⟩ := fair_idle j ih; rw [fairRun_succ h]; exact hp
        obtain ⟨t, h, _⟩ := fair_idle j idle
        exact ⟨t, h⟩
    | succ k ih =>
        intro n q j hj
        obtain ⟨t, h, ht⟩ := nextHas_next q
        rcases Nat.eq_or_lt_of_le hj with rfl | hj
        · exact ⟨t, h⟩
        · exact ih (n + 1) (by rw [fairRun_succ h]; exact ht) j hj
  intro n
  obtain ⟨t, h⟩ := go k 0 q n (Nat.zero_le n)
  rw [h, fairRun_succ h]

/-- `fairEnv` is fair to the timers and to SEQ, whatever the run. -/
theorem fairEnv_fair (f : Nat → State) : Fair f fairEnv ∧ SeqGetsTurns f fairEnv := by
  refine ⟨⟨fun n _ => ⟨3 * n + 1, by omega, ?_⟩, fun n _ => ⟨3 * n + 2, by omega, ?_⟩⟩, fun n => ⟨3 * n, by omega, ?_⟩⟩ <;>
    simp [State.move, State.under, fairEnv]

/-- DelaysEnd: delays of length 1, and a `MEASURE` with no echo at `T = 0`, have infinite fair runs in which SEQ gets turns for
ever. -/
theorem witness_fair (i : Instr) (hi : i = .delayUs 1 ∨ i = .delayMs 1 ∨ i = .measure 0) :
    let f := fairRun (stateAt i .decode [] [])
    IsRun f fairEnv ∧ Fair f fairEnv ∧ SeqGetsTurns f fairEnv ∧ (f 0).faults.clockReinit = false ∧ (f 0).Starts i ∧
      (f 0).clk.run = true := by
  intro f
  refine ⟨?_, (fairEnv_fair f).1, (fairEnv_fair f).2, rfl, ⟨rfl, rfl, ?_⟩, rfl⟩
  · rcases hi with rfl | rfl | rfl
    · exact fairRun_isRun (k := 12) (by decide)
    · exact fairRun_isRun (k := 15) (by decide)
    · exact fairRun_isRun (k := 156) (by decide +kernel)
  · rcases hi with rfl | rfl | rfl <;> decide

/-- ElapsedTicks, PeripheralAccesses: parameters in range and a counter of its width, and a step with a peripheral access. -/
theorem witness_elapsed_access :
    cfg.wellFormed = true ∧ (stateAt .clockNow .idle [] []).clk.cnt.toNat < 2 ^ cfg.clkW ∧
    nextHas (fun t => t.hist == [] ++ [.pWr .ctrl (ctrlWord 1 1 false false)])
      (exec (.i2cWriteByte 1 2) (stateAt (.i2cWriteByte 1 2) .i2Start [] [])) = true := by
  decide

/-- WaitStep: a read that meets the condition, a spin, a poll with polls left, the last poll of WaitIdle and of another wait, and a
step that enters a poll phase. -/
theorem witness_wait :
    Instr.waitNext (.i2cReadBytes 1 2 3 4) .rx = some .i2RxRead ∧
    (stateAt (.i2cReadBytes 1 2 3 4) .i2RxPoll [] [word 4]).phase = Wait.rx.phase ∧
    Wait.holds .rx (stateAt (.i2cReadBytes 1 2 3 4) .i2RxPoll [] [word 4]).draw.word = true ∧
    Wait.holds .rx { stateAt (.i2cReadBytes 1 2 3 4) .i2RxPoll [] [word 0] with cfg.mode := .baseline }.draw.word = false ∧
    (let s := stateAt (.i2cReadBytes 1 2 3 4) .i2RxPoll [] [word 0]
     Wait.holds .rx s.draw.word = false ∧ s.cfg.mode = .bounded ∧ s.work.polls + 1 ≠ s.cfg.pollLimit) ∧
    (let s := { stateAt (.i2cReadBytes 1 2 3 4) .i2IdlePoll [] [word 1] with work.polls := 1 }
     Wait.holds .idle s.draw.word = false ∧ s.cfg.mode = .bounded ∧ s.work.polls + 1 = s.cfg.pollLimit) ∧
    nextHas (fun t => t.phase.isPoll && t.phase != .i2Start) (exec (.i2cWriteByte 1 2) (stateAt (.i2cWriteByte 1 2) .i2Start [] [])) = true := by
  decide

/-- AbortSteps: the abort's poll sees the STOP, or not. -/
theorem witness_abort :
    Instr.isI2c (.i2cWriteByte 1 2) = true ∧ (stateAt (.i2cWriteByte 1 2) .i2AbPoll [] [word 0x10]).draw.word.getLsbD 4 = true ∧
    (stateAt (.i2cWriteByte 1 2) .i2AbPoll [] [word 0]).draw.word.getLsbD 4 = false := by
  decide

/-- WriteBytesSteps, ReadBytesSteps, BufferByteNotAdmitted: the last admitted byte, and the next one. -/
theorem witness_admission :
    (stateAt (.i2cWriteBytes 1 4 0xFFFFFFFE) .i2TxFetch [] []).phase = .i2TxFetch ∧
    admits cfg ((0xFFFFFFFE : Word) + (3 : BitVec 9).setWidth 32) = true ∧
    admits cfg ((0xFFFFFFFE : Word) + (4 : BitVec 9).setWidth 32) = false ∧
    (stateAt (.i2cReadBytes 1 2 4 0xFFFFFFFE) .i2RxStore [] []).phase = .i2RxStore := by
  decide

/-- Draws of a transaction: ready reads, with a data byte where `RXDR` is read. -/
def ready (rx : List Word) : List Draw :=
  [word 1, word 0, word 2, word 8] ++ rx.map word ++ [word 0x10]

/-- WriteByteTrace, I2C frames, MemoryFollowsHistory: a transaction that ends with OK. -/
theorem witness_write_byte_run :
    let s := stateAt (.i2cWriteByte 0x3C 0xAE) .decode (List.replicate 10 .seq) (ready [])
    s.cfg.wellFormed = true ∧ s.Starts (.i2cWriteByte 0x3C 0xAE) ∧ RunOf 10 s (runTo 10 s) (runTo 10 s).hist ∧
      .complete 0 ∈ (runTo 10 s).hist :=
  ⟨by decide, starts_at _ _ _ (by decide), runOf_quiet (by decide) rfl, by decide⟩

/-- WriteBytesTrace: one byte of a buffer sent, and OK. -/
theorem witness_write_bytes_run :
    let s := stateAt (.i2cWriteBytes 0x3C 1 0xFFFFFFFF) .decode (List.replicate 11 .seq) (ready [])
    s.cfg.wellFormed = true ∧ s.Starts (.i2cWriteBytes 0x3C 1 0xFFFFFFFF) ∧ RunOf 11 s (runTo 11 s) (runTo 11 s).hist ∧
      .complete 0 ∈ (runTo 11 s).hist :=
  ⟨by decide, starts_at _ _ _ (by decide), runOf_quiet (by decide) rfl, by decide⟩

/-- ReadBytesTrace: one byte received, and OK. -/
theorem witness_read_bytes_run :
    let s := stateAt (.i2cReadBytes 0x68 0x75 1 0) .decode (List.replicate 13 .seq) (ready [4, 0x5A])
    s.cfg.wellFormed = true ∧ s.Starts (.i2cReadBytes 0x68 0x75 1 0) ∧ RunOf 13 s (runTo 13 s) (runTo 13 s).hist ∧
      .complete 0 ∈ (runTo 13 s).hist :=
  ⟨by decide, starts_at _ _ _ (by decide), runOf_quiet (by decide) rfl, by decide⟩

/-- I2cErrorTrace: a busy bus, and a slave that never answers; both also meet BoundedEnds. -/
theorem witness_error_run :
    (let s := stateAt (.i2cWriteByte 0x3C 0xAE) .decode (List.replicate 3 .seq) [word 1, word 1]
     Instr.isI2c (.i2cWriteByte 0x3C 0xAE) = true ∧ s.cfg.wellFormed = true ∧ s.cfg.mode = .bounded ∧
       s.Starts (.i2cWriteByte 0x3C 0xAE) ∧ RunOf 3 s (runTo 3 s) (runTo 3 s).hist ∧ .complete 1 ∈ (runTo 3 s).hist ∧
       s.faults.clockReinit = false ∧
       s.cfg.pollLimit * (Instr.waitSteps (.i2cWriteByte 0x3C 0xAE) + 1) + Instr.plainAccesses (.i2cWriteByte 0x3C 0xAE) + 3 ≤ 17) ∧
    (let s := stateAt (.i2cWriteByte 0x3C 0xAE) .decode (List.replicate 9 .seq) [word 0, word 1, word 1, word 0, word 0]
     s.Starts (.i2cWriteByte 0x3C 0xAE) ∧ RunOf 9 s (runTo 9 s) (runTo 9 s).hist ∧ .complete 2 ∈ (runTo 9 s).hist) :=
  ⟨⟨rfl, by decide, rfl, starts_at _ _ _ (by decide), runOf_quiet (by decide) rfl, by decide, rfl, by decide⟩,
   ⟨starts_at _ _ _ (by decide), runOf_quiet (by decide) rfl, by decide⟩⟩

/-- BaselineHang: two busy reads at WaitIdle. -/
theorem witness_baseline :
    let s := { stateAt (.i2cWriteByte 1 2) .i2IdlePoll [] [word 1, word 3, word 0] with cfg.mode := .baseline }
    Instr.waitNext (.i2cWriteByte 1 2) .idle = some .i2Start ∧ s.phase = Wait.idle.phase ∧ s.cmd.instr = some (.i2cWriteByte 1 2) ∧
      s.faults.clockReinit = false ∧ s.cfg.mode = .baseline ∧ s.env.draws = [word 1, word 3] ++ [word 0] ∧
      ∀ d ∈ [word 1, word 3], Wait.holds .idle d.word = false := by
  decide

theorem passes_one {w : Wait} {v : Word} (h : w.holds v = true) : w.passes [v] := ⟨[], v, rfl, by simp, h⟩

/-- WriteBytesCompletes: two bytes at the wrap of the address space, every wait over at its last allowed read. -/
theorem witness_write_bytes_completes :
    let s := stateAt (.i2cWriteBytes 1 2 0xFFFFFFFF) .decode [] [word 0, word 2, word 2, word 8, word 0x10]
    s.Starts (.i2cWriteBytes 1 2 0xFFFFFFFF) ∧ s.faults.clockReinit = false ∧ [[word 2], [word 2]].length = (2 : Byte).toNat ∧
      s.env.draws = [word 0] ++ [[word 2], [word 2]].flatten ++ [word 8] ++ [word 0x10] ++ [] ∧
      Wait.passes .idle ([word 0].map Draw.word) ∧ (∀ k ∈ [[word 2], [word 2]], Wait.passes .tx (k.map Draw.word)) ∧
      Wait.passes .tc ([word 8].map Draw.word) ∧ Wait.passes .stopf ([word 0x10].map Draw.word) ∧
      (∀ k ∈ [word 0] :: [word 8] :: [word 0x10] :: [[word 2], [word 2]], k.length ≤ s.cfg.pollLimit) ∧
      ∀ j < (2 : Byte).toNat, admits s.cfg ((0xFFFFFFFF : Word) + BitVec.ofNat 32 j) = true := by
  refine ⟨starts_at _ _ _ (by decide), rfl, rfl, rfl, passes_one (by decide), ?_, passes_one (by decide), passes_one (by decide),
    by decide, by decide⟩
  intro k hk
  have : k = [word 2] := by simpa using hk
  subst this
  exact passes_one (by decide)

/-- ReadBytesCompletes: one byte. -/
theorem witness_read_bytes_completes :
    let s := stateAt (.i2cReadBytes 1 2 1 0) .decode [] [word 0, word 2, word 8, word 4, word 0x5A, word 0x10]
    s.Starts (.i2cReadBytes 1 2 1 0) ∧ s.faults.clockReinit = false ∧ Memory.wf s.mem = true ∧
      [([word 4], word 0x5A)].length = (1 : Byte).toNat ∧
      s.env.draws = [word 0] ++ [word 2] ++ [word 8] ++ ([([word 4], word 0x5A)].map (fun p => p.1 ++ [p.2])).flatten ++
        [word 0x10] ++ [] ∧
      Wait.passes .idle ([word 0].map Draw.word) ∧ Wait.passes .tx ([word 2].map Draw.word) ∧
      Wait.passes .tc ([word 8].map Draw.word) ∧ (∀ p ∈ [([word 4], word 0x5A)], Wait.passes .rx (p.1.map Draw.word)) ∧
      Wait.passes .stopf ([word 0x10].map Draw.word) ∧
      (∀ k ∈ [word 0] :: [word 2] :: [word 8] :: [word 0x10] :: [([word 4], word 0x5A)].map Prod.fst,
        k.length ≤ s.cfg.pollLimit) ∧
      ∀ j < (1 : Byte).toNat, admits s.cfg ((0 : Word) + BitVec.ofNat 32 j) = true := by
  refine ⟨starts_at _ _ _ (by decide), rfl, by decide, rfl, rfl, passes_one (by decide), passes_one (by decide),
    passes_one (by decide), ?_, passes_one (by decide), by decide, by decide⟩
  intro p hp
  have : p = ([word 4], word 0x5A) := by simpa using hp
  subst this
  exact passes_one (by decide)

/-- ReferenceWriteByte: a reference environment with a present slave on a free bus. -/
theorem witness_reference :
    let e : RefEnv := { per := RefPer.reset true false [], rise := none, width := 0, echoTicks := none, msTicks := 0,
                        clockDraw := word 0, program := [] }
    let s := stateAt (.i2cWriteByte 0x3C 0xAE) .decode [] []
    s.Starts (.i2cWriteByte 0x3C 0xAE) ∧ s.faults.clockReinit = false ∧ s.cfg.wellFormed = true ∧ s.cfg.mode = .bounded ∧
      e.per = RefPer.reset true false [] :=
  ⟨starts_at _ _ _ (by decide), rfl, by decide, rfl, rfl⟩

/-- MeasureSteps, outside its delays: both levels at each sample, with the counter at and below the timeout. -/
theorem witness_measure_steps :
    (stateAt (.measure 5) .rgASample [] [level true]).draw.bit = true ∧ (stateAt (.measure 5) .rgBSample [] [level false]).draw.bit = false ∧
    (5 : Word).toNat < (({ stateAt (.measure 5) .rgASample [] [level false] with work.ecnt := 5 }).work.ecnt + 1).toNat ∧
    ¬ (5 : Word).toNat < (({ stateAt (.measure 5) .rgASample [] [level false] with work.ecnt := 4 }).work.ecnt + 1).toNat := by
  decide

/-- MeasureSteps, its delays: each phase with each of its conditions, and each kind of return. -/
theorem witness_measure_delays :
    (let s := { stateAt (.measure 5) .duEntry [] [] with work.ret := .back .rgTrig1 }
     s.phase = .duEntry ∧ s.work.drem = 0 ∧ s.work.ret = .back .rgTrig1) ∧
    (let s := { stateAt (.measure 5) .duEntry [] [] with work.drem := 10 }
     s.phase = .duEntry ∧ s.work.drem ≠ 0) ∧
    (let s := { stateAt (.measure 5) .duWait [] [] with clk.uif := true }
     s.phase = .duWait ∧ s.clk.uif = true) ∧
    (let s := stateAt (.measure 5) .duWait [] []
     s.phase = .duWait ∧ s.clk.uif = false) ∧
    (let s := { stateAt (.measure 5) .duClear [] [] with work.drem := 2 }
     s.phase = .duClear ∧ s.work.drem ≠ 1) ∧
    (let s := { stateAt (.measure 5) .duClear [] [] with work.drem := 1, work.ret := .back .rgBSample }
     s.phase = .duClear ∧ s.work.drem = 1 ∧ s.work.ret = .back .rgBSample) ∧
    (let s := { stateAt (.measure 5) .dmArm [] [] with work.ret := .back .rgSettle }
     s.phase = .dmArm ∧ s.work.mrem = 0 ∧ s.work.ret = .back .rgSettle) ∧
    (let s := { stateAt (.measure 5) .dmArm [] [] with work.mrem := 1000 }
     s.phase = .dmArm ∧ s.work.mrem ≠ 0) ∧
    (let s := { stateAt (.measure 5) .dmWait [] [] with mst.done := true }
     s.phase = .dmWait ∧ s.mst.done = true) ∧
    (let s := stateAt (.measure 5) .dmWait [] []
     s.phase = .dmWait ∧ s.mst.done = false) := by
  decide

/-- 42_ranger R182, 40_clock R123: the last observed flag of the trigger's low level is cleared and the pulse goes high next. -/
theorem test_measure_delay_returns :
    nextHas (fun t => t.phase == .rgTrig1 && !t.clk.uif && t.work.drem == 0 && t.hist == [.uifClr])
      (exec (.measure 5) { stateAt (.measure 5) .duClear [] [] with
        work.drem := 1, work.ret := .back .rgTrig1, clk.uif := true }) = true := by
  decide

/-- The moves of a `MEASURE` with `n` samples and no delay between them, its two trigger delays on schedule, one settle expiry. -/
def measureMoves (n : Nat) : List Move :=
  let delay := [.seq] ++ (List.replicate 10 [Move.tick, .seq, .seq]).flatten
  [.seq, .seq] ++ delay ++ [.seq] ++ delay ++ [.seq] ++ List.replicate n .seq ++ [.seq, .msExpire, .seq, .seq, .seq]

/-- MeasureTrace, TriggerHeld, NoEchoNoRange: a rise timeout at `T = 0`. -/
theorem witness_measure_rise :
    let s := stateAt (.measure 0) .decode (measureMoves 1) [level false]
    s.Starts (.measure 0) ∧ s.mst.armed = false ∧ RunOf 72 s (runTo 72 s) (runTo 72 s).hist ∧ .complete 4 ∈ (runTo 72 s).hist ∧
      .echoRd true ∉ (runTo 72 s).hist :=
  ⟨starts_at _ _ _ (by decide), rfl, runOf_quiet (by decide) rfl, by decide, by decide⟩

/-- MeasureTrace: a fall timeout and a valid zero at `T = 0`. -/
theorem witness_measure_fall :
    (let s := stateAt (.measure 0) .decode (measureMoves 2) [level true, level true]
     RunOf 73 s (runTo 73 s) (runTo 73 s).hist ∧ .complete 5 ∈ (runTo 73 s).hist) ∧
    (let s := stateAt (.measure 0) .decode (measureMoves 2) [level true, level false]
     RunOf 73 s (runTo 73 s) (runTo 73 s).hist ∧ .complete 0 ∈ (runTo 73 s).hist) :=
  ⟨⟨runOf_quiet (by decide) rfl, by decide⟩, ⟨runOf_quiet (by decide) rfl, by decide⟩⟩

/-- CompleteRule, OneAccessPerStep, FrameClock, FrameI2c, FrameMeasure: a step of every command that answers a next state; a step that
changes the results. -/
theorem witness_frames :
    nextHas (fun _ => true) (exec .initClock (stateAt .initClock .ckInit [] [])) = true ∧
    nextHas (fun _ => true) (exec .clockNow (stateAt .clockNow .ckNow [] [])) = true ∧
    nextHas (fun _ => true) (exec (.delayUs 1) (stateAt (.delayUs 1) .duEntry [] [])) = true ∧
    nextHas (fun _ => true) (exec (.delayMs 1) (stateAt (.delayMs 1) .dmArm [] [])) = true ∧
    nextHas (fun _ => true) (exec (.i2cWriteByte 1 2) (stateAt (.i2cWriteByte 1 2) .i2Stop [] [])) = true ∧
    nextHas (fun _ => true) (exec (.i2cWriteBytes 1 2 0) (stateAt (.i2cWriteBytes 1 2 0) .i2TxWrite [] [])) = true ∧
    nextHas (fun t => Memory.read t.mem 0 == 0) (exec (.i2cReadBytes 1 2 1 0) (stateAt (.i2cReadBytes 1 2 1 0) .i2RxStore [] [])) = true ∧
    nextHas (fun _ => true) (exec (.measure 1) (stateAt (.measure 1) .rgSettle [] [])) = true ∧
    nextHas (fun t => t.res.statusWritten) (step (stateAt .clockNow .ckNow [.seq] [])) = true := by
  decide

/-- FaultsStay: a faulted SEQ, a faulted HOST at its turn, and a step that raises a fault. -/
theorem witness_faults :
    nextHas (fun _ => true) (step { stateAt .initClock .ckInit [.seq] [] with faults.clockReinit := true }) = true ∧
    (let s := { stateAt .clockNow .ckNow [.hostRead 1] [] with faults.reentrant := some 1 }
     s.hostFaulted = true ∧ s.move ≠ .seq ∧ s.move ≠ .tick ∧ s.move ≠ .msExpire) ∧
    nextHas (fun t => t.faults.unwrittenRead == some 1) (step (stateAt .clockNow .ckNow [.hostRead 1] [])) = true := by
  decide

/-- StatusIsLast: a state between commands, and its step. -/
theorem witness_status_is_last :
    let s := stateAt .clockNow .ckNow [.seq] []
    s.StatusIsLast ∧ nextHas (fun t => t.res.status == 0 && t.res.statusWritten) (step s) = true :=
  ⟨⟨rfl, by decide⟩, by decide⟩

/-- MemoryFollowsHistory: a run inside a command, over a store. -/
theorem witness_busy_run :
    let s := stateAt (.i2cReadBytes 0x68 0x75 1 0) .decode (List.replicate 11 .seq) (ready [4, 0x5A])
    s.phase ≠ .idle ∧ RunOf 11 s (runTo 11 s) (runTo 11 s).hist ∧ (runTo 11 s).phase ≠ .idle ∧ .mWr 0 0x5A ∈ (runTo 11 s).hist :=
  ⟨by decide, runOf_quiet (by decide) rfl, by decide, by decide⟩

/-- NoStaleWorkingRegister: a run from a state between commands. -/
theorem witness_between :
    let s := stateAt .clockNow .decode [.seq, .seq] []
    s.phase = .decode ∧ quiet 2 s = true := by
  decide

/-- StepKeepsInv: a state that meets the invariant inside a delay, and its step. -/
theorem witness_inv :
    let s := { stateAt (.delayUs 2) .duWait [.tick] [] with work.drem := 2 }
    s.Inv ∧ nextHas (fun t => t.clk.cnt == 0) (step s) = true := by
  intro s
  refine ⟨?_, by decide⟩
  refine { cfg := by decide, mem := by decide, cnt := by decide, status := by decide, ekind := by decide, sentinel := by decide,
           range := by decide, armed := by decide, polls := by decide, cmd := by decide, abort := by decide, reinit := by decide,
           waits := by decide, point := fun _ _ => ⟨.delayUs 2, by decide, ?_⟩ }
  refine { phase := by decide, ret := by decide, byte := ?_, echo := ?_, settle := ?_ }
  · intro c h; exact absurd h (by simp [Instr.needsByte])
  · intro t h; exact absurd h (by simp)
  · intro t h; exact absurd h (by simp)

end Sys2Proof.Tests
end

/-! ### SEQ's turn is exec of the decoded command (O8) -/

section
namespace Sys2Proof.Machine

/-- At `DECODE` the turn of an unfaulted SEQ is exec of the command `C_DESC` decodes to (30_encoding R104). -/
theorem State.seqStep_of_decode {s : State} {i : Instr} (hf : s.faults.clockReinit = false) (hp : s.phase = .decode)
    (hd : decode s.cmd.desc = .ok i) : s.seqStep = exec i s := by
  have decoded : s.decodeStep = exec i s := by simp [State.decodeStep, hd]
  simp [State.seqStep, State.seqFaulted, hf, hp, decoded]

/-- At a later phase it is exec of that same command, whose fields are latched (10_state R21). -/
theorem State.seqStep_of_later {s : State} {i : Instr} (hf : s.faults.clockReinit = false) (hi : s.phase ≠ .idle)
    (hp : s.phase ≠ .decode) (hc : s.cmd = Cmd.ofDesc s.cmd.desc) (hd : decode s.cmd.desc = .ok i) : s.seqStep = exec i s := by
  have latched : s.cmd.instr = some i := by rw [hc]; exact Cmd.instr_ofDesc hd
  rcases State.seqStep_cases (s := s) rfl with ⟨h, _⟩ | ⟨_, h, _⟩ | ⟨_, h, _⟩ | ⟨_, _, _, h⟩
  · simp [State.seqFaulted, hf] at h
  · exact absurd h hi
  · exact absurd h hp
  · rw [h, State.phaseStep, latched]

/-- When it is SEQ's turn, a step of the machine is SEQ's turn in the state whose next move is taken (00_scope R10). -/
theorem step_of_move_seq {s : State} (h : s.move = .seq) : step s = s.dropMove.seqStep := by
  rw [step, State.machineStep_eq, h]; rfl

/-- A table word that has a command is a descriptor that decodes to it. -/
theorem decode_of_decodeTableWord {n w : Nat} {i : Instr} (h : decodeTableWord n w = some i) :
    decode (BitVec.ofNat 64 (w % 2 ^ n)) = .ok i := by
  unfold decodeTableWord at h
  split at h
  · next j e => rw [e, Option.some.inj h]
  · cases h

/-- A placed descriptor makes it SEQ's turn, at `DECODE` with the descriptor's fields latched (log 17). -/
theorem State.step_withFetchWord (s : State) (n w : Nat) : step (s.withFetchWord n w) =
    State.seqStep { s with
      cmd := Cmd.ofDesc (BitVec.ofNat 64 (w % 2 ^ n)), phase := .decode, faults.clockReinit := false } :=
  step_of_move_seq rfl

/-- Settles O8: SEQ's turn decodes at `DECODE` and reads the latched command later; a placed word is such a turn at `DECODE`. -/
theorem stepRunsDecoded : Obligations.StepRunsDecoded := by
  refine ⟨fun s i hm hf hp hd => ?_, fun s i hm hf hi hp hc hd => ?_, fun s n w i h => ?_⟩
  · rw [step_of_move_seq hm]
    exact State.seqStep_of_decode (by simpa using hf) (by simpa using hp) (by simpa using hd)
  · rw [step_of_move_seq hm]
    exact State.seqStep_of_later (by simpa using hf) (by simpa using hi) (by simpa using hp) (by simpa using hc)
      (by simpa using hd)
  · rw [State.step_withFetchWord]
    exact State.seqStep_of_decode rfl rfl (decode_of_decodeTableWord h)

end Sys2Proof.Machine
end

/-! ### What a step appends to the history (O49) -/

section
namespace Sys2Proof.Machine

/-- What one SEQ step of a command may append to `HIST`, in its order: an access, a completion, both, `CLOCK_REINIT`, or nothing
(20_memory R65). -/
inductive SeqStepEvents : List Event → Prop
  | nothing : SeqStepEvents []
  | access {e : Event} (he : e.isAccess = true) : SeqStepEvents [e]
  | completion (c : Code) : SeqStepEvents [.complete c]
  | accessCompletion {e : Event} (he : e.isAccess = true) (c : Code) : SeqStepEvents [e, .complete c]
  | reinit : SeqStepEvents [.fault .clockReinit]

@[simp] theorem Event.isAccess_complete (c : Code) : (Event.complete c).isAccess = false := rfl

@[simp] theorem Event.isAccess_fault (f : ModelFault) : (Event.fault f).isAccess = false := rfl

theorem SeqStepEvents.length_le_two {es : List Event} (h : SeqStepEvents es) : es.length ≤ 2 := by
  cases h <;> simp

theorem SeqStepEvents.countP_isAccess_le_one {es : List Event} (h : SeqStepEvents es) : es.countP Event.isAccess ≤ 1 := by
  cases h with
  | nothing => simp
  | access he => simp [he]
  | completion c => simp
  | accessCompletion he c => simp [he]
  | reinit => simp

theorem SeqStepEvents.mem_cases {es : List Event} (h : SeqStepEvents es) :
    ∀ e ∈ es, e.isAccess = true ∨ (∃ c, e = .complete c) ∨ e = .fault .clockReinit := by
  cases h with
  | nothing => simp
  | access he => simp [he]
  | completion c => simp
  | accessCompletion he c => simp [he]
  | reinit => simp

/-- `HIST` of `t` is that of `s` and what one SEQ step may append. -/
def State.AppendsSeqStep (s t : State) : Prop := ∃ es, t.hist = s.hist ++ es ∧ SeqStepEvents es

/-- `HIST` of `t` is that of `s`, or that and a completion: what follows the access of a step. -/
def State.MayComplete (s t : State) : Prop := t.hist = s.hist ∨ ∃ c, t.hist = s.hist ++ [.complete c]

/-! How a step's history is told from what it does. -/

section
variable {s t u : State} {e : Event}

theorem State.MayComplete.appends (h : s.MayComplete t) : s.AppendsSeqStep t := by
  rcases h with h | ⟨c, h⟩
  · exact ⟨[], by simp [h], .nothing⟩
  · exact ⟨_, h, .completion c⟩

theorem State.AppendsSeqStep.of_hist_eq (h : t.hist = s.hist) : s.AppendsSeqStep t := State.MayComplete.appends (.inl h)

/-- An access, after which the step may complete the command. -/
theorem State.AppendsSeqStep.of_access (ha : u.hist = s.hist ++ [e]) (h : u.MayComplete t) (he : e.isAccess = true := by rfl) :
    s.AppendsSeqStep t := by
  rcases h with h | ⟨c, h⟩
  · exact ⟨_, h.trans ha, .access he⟩
  · exact ⟨_, by rw [h, ha, List.append_assoc]; rfl, .accessCompletion he c⟩

/-- An access and nothing else. -/
theorem State.AppendsSeqStep.of_only_access (h : t.hist = s.hist ++ [e]) (he : e.isAccess = true := by rfl) :
    s.AppendsSeqStep t :=
  .of_access h (.inl rfl) he

end

/-! What each shared operation appends. -/

theorem State.complete_mayComplete (c : Code) (s : State) : s.MayComplete (s.complete c) := .inr ⟨c, rfl⟩

theorem State.waitFail_mayComplete (w : Wait) (s : State) : s.MayComplete (s.waitFail w) := by
  unfold State.waitFail
  split
  · exact .inl rfl
  · exact s.complete_mayComplete _

theorem State.delayReturn_mayComplete (s : State) : s.MayComplete s.delayReturn := by
  rcases s.delayReturn_cases with ⟨_, h⟩ | ⟨p, _, h⟩ <;> rw [h]
  · exact s.complete_mayComplete _
  · exact .inl (by simp)

theorem State.polled_hist (s : State) : s.polled.hist = s.hist ++ [.pRd .status s.preadValue] := rfl

theorem State.waitStep_appends {w : Wait} {n : Phase} {s : State} (hp : s.phase = w.phase) :
    s.AppendsSeqStep (s.waitStep w n) := by
  rcases State.waitStep_cases (n := n) hp with ⟨_, h⟩ | ⟨_, _, h⟩ | ⟨_, _, _, h⟩ | ⟨_, _, _, h⟩ <;> rw [h]
  · exact .of_only_access (e := .pRd .status s.preadValue) (by simp)
  · exact .of_only_access (e := .pRd .status s.preadValue) (by simp)
  · exact .of_access s.polled_hist (State.waitFail_mayComplete w _)
  · exact .of_only_access s.polled_hist

theorem State.abortPoll_appends (s : State) : s.AppendsSeqStep s.abortPoll := by
  rcases s.abortPoll_cases with ⟨_, h⟩ | ⟨_, _, h⟩ | ⟨_, _, h⟩ <;> rw [h]
  · exact .of_only_access (e := .pRd .status s.preadValue) (by simp)
  · exact .of_only_access s.polled_hist
  · exact .of_only_access s.polled_hist

theorem State.abortClear_appends (s : State) : s.AppendsSeqStep s.abortClear :=
  .of_access (s.pwrite_hist _ _) (State.complete_mayComplete _ _)

theorem State.stopfClear_appends (s : State) : s.AppendsSeqStep s.stopfClear :=
  .of_access (s.pwrite_hist _ _) (State.complete_mayComplete _ _)

theorem State.duEntry_appends (s : State) : s.AppendsSeqStep s.duEntry := by
  rcases s.duEntry_cases with ⟨_, h⟩ | ⟨_, h⟩ <;> rw [h]
  · exact s.delayReturn_mayComplete.appends
  · exact .of_only_access s.uifClear_hist

theorem State.duWait_appends (s : State) : s.AppendsSeqStep s.duWait := by
  rcases s.duWait_cases with ⟨_, h⟩ | ⟨_, h⟩ <;> rw [h]
  · exact .of_only_access (s.emit_hist _)
  · exact .of_hist_eq rfl

theorem State.duClear_appends (s : State) : s.AppendsSeqStep s.duClear := by
  rcases s.duClear_cases with ⟨_, h⟩ | ⟨_, h⟩ <;> rw [h]
  · exact .of_access s.uifClear_hist (State.delayReturn_mayComplete _)
  · exact .of_only_access s.uifClear_hist

theorem State.dmArm_appends (s : State) : s.AppendsSeqStep s.dmArm := by
  rcases s.dmArm_cases with ⟨_, h⟩ | ⟨_, h⟩ <;> rw [h]
  · exact s.delayReturn_mayComplete.appends
  · exact .of_only_access s.mstArm_hist

theorem State.dmWait_appends (s : State) : s.AppendsSeqStep s.dmWait := by
  rcases s.dmWait_cases with ⟨_, h⟩ | ⟨_, h⟩ <;> rw [h]
  · exact .of_only_access (s.emit_hist _)
  · exact .of_hist_eq rfl

theorem State.ckInit_appends (s : State) : s.AppendsSeqStep s.ckInit := by
  unfold State.ckInit
  split
  · exact ⟨_, s.raise_hist _, .reinit⟩
  · exact ⟨[.clkInit, .complete Status.ok.code], by simp, .accessCompletion rfl _⟩

theorem State.ckNow_appends (s : State) : s.AppendsSeqStep s.ckNow :=
  .of_access s.clkRead_hist (State.complete_mayComplete _ _)

theorem State.sampleA_appends (timeout : Word) (s : State) : s.AppendsSeqStep (s.sampleA timeout) := by
  unfold State.sampleA
  split
  · exact .of_only_access s.echoSample_hist
  · split <;> exact .of_only_access s.echoSample_hist

theorem State.sampleB_appends (timeout : Word) (s : State) : s.AppendsSeqStep (s.sampleB timeout) := by
  unfold State.sampleB
  split
  · exact .of_only_access s.echoSample_hist
  · split <;> exact .of_only_access s.echoSample_hist

theorem State.txFetch_appends {buf : Word} {s t : State} (h : s.txFetch buf = .next t) : s.AppendsSeqStep t := by
  obtain ⟨_, rfl⟩ := State.txFetch_next h
  exact .of_only_access (s.memRead_hist _)

theorem State.rxStore_appends {count : Byte} {buf : Word} {s t : State} (h : s.rxStore count buf = .next t) :
    s.AppendsSeqStep t := by
  obtain ⟨_, rfl⟩ := State.rxStore_next h
  exact .of_access (s.memWrite_hist _ _) (.inl (State.goto_hist _ _))

/-- `PWrite`, and then nothing but a change of working registers and phase. -/
theorem State.pwrite_goto_appends {r : PReg} {v : Word} {p : Phase} {s u : State} (h : u.hist = (s.pwrite r v).hist) :
    s.AppendsSeqStep (u.goto p) :=
  .of_access (s.pwrite_hist r v) (.inl ((State.goto_hist _ _).trans h))

/-! What one SEQ step of each command appends, phase by phase in the order of the meaning's arms. -/

section
variable {s t : State}

theorem execInitClock_appends (h : execInitClock s = .next t) : s.AppendsSeqStep t := by
  unfold execInitClock at h
  split at h <;> cases h
  case h_1 => exact .of_hist_eq (s.goto_hist _)
  case h_2 => exact s.ckInit_appends

theorem execClockNow_appends (h : execClockNow s = .next t) : s.AppendsSeqStep t := by
  unfold execClockNow at h
  split at h <;> cases h
  case h_1 => exact .of_hist_eq (s.goto_hist _)
  case h_2 => exact s.ckNow_appends

theorem execDelayUs_appends {n : Word} (h : execDelayUs n s = .next t) : s.AppendsSeqStep t := by
  unfold execDelayUs at h
  split at h <;> cases h
  · exact .of_hist_eq (s.enterDelayUs_hist _ _)
  · exact s.duEntry_appends
  · exact s.duWait_appends
  · exact s.duClear_appends

theorem execDelayMs_appends {n : Word} (h : execDelayMs n s = .next t) : s.AppendsSeqStep t := by
  unfold execDelayMs at h
  split at h <;> cases h
  · exact .of_hist_eq (s.enterDelayMs_hist _ _)
  · exact s.dmArm_appends
  · exact s.dmWait_appends

theorem execI2cWriteByte_appends {a : Addr7} {b : Byte} (h : execI2cWriteByte a b s = .next t) : s.AppendsSeqStep t := by
  unfold execI2cWriteByte at h
  split at h <;> cases h
  · exact .of_hist_eq (s.goto_hist _)
  · exact State.waitStep_appends ‹_›
  · exact State.pwrite_goto_appends rfl
  · exact State.waitStep_appends ‹_›
  · exact State.pwrite_goto_appends rfl
  · exact State.waitStep_appends ‹_›
  · exact .of_access s.setStop_hist (.inl (State.goto_hist _ _))
  · exact State.waitStep_appends ‹_›
  · exact s.stopfClear_appends
  · exact .of_only_access s.setStop_hist
  · exact s.abortPoll_appends
  · exact s.abortClear_appends

theorem execI2cWriteBytes_appends {a : Addr7} {c : Byte} {buf : Word} (h : execI2cWriteBytes a c buf s = .next t) :
    s.AppendsSeqStep t := by
  unfold execI2cWriteBytes at h
  split at h
  -- the fetch is the only phase that may stop on an access (20_memory R69)
  case h_5 => exact State.txFetch_appends h
  all_goals cases h
  · exact .of_hist_eq (s.goto_hist _)
  · exact State.waitStep_appends ‹_›
  · exact State.pwrite_goto_appends rfl
  · exact State.waitStep_appends ‹_›
  · exact State.pwrite_goto_appends rfl
  · exact State.waitStep_appends ‹_›
  · exact .of_access s.setStop_hist (.inl (State.goto_hist _ _))
  · exact State.waitStep_appends ‹_›
  · exact s.stopfClear_appends
  · exact .of_only_access s.setStop_hist
  · exact s.abortPoll_appends
  · exact s.abortClear_appends

theorem execI2cReadBytes_appends {a : Addr7} {r c : Byte} {buf : Word} (h : execI2cReadBytes a r c buf s = .next t) :
    s.AppendsSeqStep t := by
  unfold execI2cReadBytes at h
  split at h
  -- the store is the only phase that may stop on an access (20_memory R69)
  case h_10 => exact State.rxStore_appends h
  all_goals cases h
  · exact .of_hist_eq (s.goto_hist _)
  · exact State.waitStep_appends ‹_›
  · exact State.pwrite_goto_appends rfl
  · exact State.waitStep_appends ‹_›
  · exact State.pwrite_goto_appends rfl
  · exact State.waitStep_appends ‹_›
  · exact State.pwrite_goto_appends rfl
  · exact State.waitStep_appends ‹_›
  · exact .of_only_access (s.pread_hist _)
  · exact State.waitStep_appends ‹_›
  · exact s.stopfClear_appends
  · exact .of_only_access s.setStop_hist
  · exact s.abortPoll_appends
  · exact s.abortClear_appends

theorem execMeasure_appends {timeout : Word} (h : execMeasure timeout s = .next t) : s.AppendsSeqStep t := by
  unfold execMeasure at h
  split at h <;> cases h
  · exact .of_hist_eq (s.goto_hist _)
  · exact .of_only_access (s.drive_hist _)
  · exact .of_only_access (s.drive_hist _)
  · exact .of_only_access (s.drive_hist _)
  · exact s.sampleA_appends timeout
  · exact s.sampleB_appends timeout
  · exact State.MayComplete.appends (State.complete_mayComplete _ _)
  · exact s.duEntry_appends
  · exact s.duWait_appends
  · exact s.duClear_appends
  · exact s.dmArm_appends
  · exact s.dmWait_appends

/-- One SEQ step of any command makes at most one access, then completes or not, or is `CLOCK_REINIT` (00_scope R10). -/
theorem exec_appends {i : Instr} (h : exec i s = .next t) : s.AppendsSeqStep t := by
  cases i with
  | initClock => exact execInitClock_appends h
  | clockNow => exact execClockNow_appends h
  | delayUs n => exact execDelayUs_appends h
  | delayMs n => exact execDelayMs_appends h
  | i2cWriteByte addr data => exact execI2cWriteByte_appends h
  | i2cWriteBytes addr count buf => exact execI2cWriteBytes_appends h
  | i2cReadBytes addr reg count buf => exact execI2cReadBytes_appends h
  | measure timeout => exact execMeasure_appends h

end

/-- SEQ's turn appends what one SEQ step may: nothing when it passes, a completion at an illegal descriptor, else what exec does. -/
theorem State.seqStep_appends {s t : State} (h : s.seqStep = .next t) : s.AppendsSeqStep t := by
  rcases State.seqStep_cases h with ⟨_, e⟩ | ⟨_, _, e⟩ | ⟨_, _, e⟩ | ⟨_, _, _, e⟩
  · cases e; exact .of_hist_eq rfl
  · cases e; exact .of_hist_eq rfl
  · unfold State.decodeStep at e
    split at e
    · exact exec_appends e.symm
    · cases e; exact (s.complete_mayComplete _).appends
  · unfold State.phaseStep at e
    split at e
    · exact exec_appends e.symm
    · cases e

/-- A move that is not SEQ's appends at most one event: a tick, an expiry, an issue, or a fault of HOST. -/
theorem State.act_appends_le_one {m : Move} {s t : State} (hm : m ≠ .seq) (h : s.act m = .next t) :
    ∃ es, t.hist = s.hist ++ es ∧ es.length ≤ 1 := by
  rcases State.act_next h with ⟨e, _⟩ | ⟨_, _, rfl⟩ | ⟨_, _, rfl⟩ | ⟨d, _, _, rfl⟩ | ⟨r, _, _, e⟩ | ⟨a, v, _, _, e⟩ | ⟨_, rfl⟩
  · exact absurd e hm
  · exact ⟨_, s.tick_hist, le_rfl⟩
  · exact ⟨_, s.msExpire_hist, le_rfl⟩
  · rcases s.issue_cases d with ⟨_, e⟩ | ⟨_, e⟩ <;> rw [e]
    · exact ⟨_, s.emit_hist _, le_rfl⟩
    · exact ⟨_, s.raise_hist _, le_rfl⟩
  · obtain ⟨_, ⟨v, _, rfl⟩ | ⟨_, rfl⟩⟩ := State.hostRead_next e
    · exact ⟨[], by simp, by simp⟩
    · exact ⟨_, s.raise_hist _, le_rfl⟩
  · obtain ⟨_, rfl⟩ := State.hostStore_next e
    exact ⟨[], by simp, by simp⟩
  · exact ⟨[], by simp, by simp⟩

/-- Every step only appends, and at most two events: a SEQ step an access and a completion, another agent's move one. -/
theorem step_appends_le_two {s t : State} (h : step s = .next t) : ∃ es, t.hist = s.hist ++ es ∧ es.length ≤ 2 := by
  by_cases hm : s.move = .seq
  · rw [step_of_move_seq hm] at h
    obtain ⟨es, he, hes⟩ := State.seqStep_appends h
    exact ⟨es, by simpa using he, hes.length_le_two⟩
  · obtain ⟨es, he, hl⟩ := State.act_appends_le_one hm h
    exact ⟨es, by simpa using he, hl.trans one_le_two⟩

/-- Settles O49, from what each move can append: `step_appends_le_two` for the machine, `exec_appends` for a command. -/
theorem oneAccessPerStep : Obligations.OneAccessPerStep := by
  refine ⟨fun s t h => step_appends_le_two h, fun i s t h => ?_⟩
  obtain ⟨es, he, hes⟩ := exec_appends h
  exact ⟨es, he, hes.countP_isAccess_le_one, hes.mem_cases⟩

end Sys2Proof.Machine
end

/-! ### What a SEQ step does to the faults and to `RES_STATUS` (O48, O50) -/

section
namespace Sys2Proof.Machine

@[simp] theorem lastStatus_append_complete (h : List Event) (c : Code) : lastStatus (h ++ [.complete c]) = some c := by
  simp [lastStatus]

theorem lastStatus_append_of_not_complete {e : Event} (he : e.isComplete = false) (h : List Event) :
    lastStatus (h ++ [e]) = lastStatus h := by
  unfold lastStatus
  rw [List.foldl_append]
  cases e with
  | complete c => cases he
  | _ => rfl

/-- What a step of SEQ leaves when it neither completes nor faults: the latched command, the fault record, `RES_STATUS` and the
last completion in `HIST`. -/
structure State.GoesOn (s t : State) : Prop where
  cmd : t.cmd = s.cmd
  faults : t.faults = s.faults
  status : t.res.status = s.res.status
  written : t.res.statusWritten = s.res.statusWritten
  last : lastStatus t.hist = lastStatus s.hist

/-- What one SEQ step of a command can do: it goes on, or goes on and then completes, or is `CLOCK_REINIT` (60_exceptions R212,
R225). -/
inductive State.SeqEffect (s : State) : State → Prop
  | goesOn {t : State} (h : s.GoesOn t) : SeqEffect s t
  | completes {u : State} (h : s.GoesOn u) (c : Code) : SeqEffect s (u.complete c)
  | reinit : SeqEffect s (s.raise .clockReinit)

/-! How a step's effect is told from what it does. -/

section
variable {s t u : State} {e : Event}

theorem State.GoesOn.refl (s : State) : s.GoesOn s := ⟨rfl, rfl, rfl, rfl, rfl⟩

/-- An event that is no completion is appended. -/
theorem State.GoesOn.of_event (hist : t.hist = s.hist ++ [e]) (he : e.isComplete = false) (cmd : t.cmd = s.cmd)
    (faults : t.faults = s.faults) (res : t.res = s.res) : s.GoesOn t :=
  ⟨cmd, faults, by rw [res], by rw [res], by rw [hist, lastStatus_append_of_not_complete he]⟩

/-- Working registers and `PHASE` are free. -/
theorem State.GoesOn.moved (h : s.GoesOn u) (x : Work) (p : Phase) : s.GoesOn { u with work := x, phase := p } :=
  ⟨h.cmd, h.faults, h.status, h.written, h.last⟩

theorem State.GoesOn.goto (h : s.GoesOn u) (p : Phase) : s.GoesOn (u.goto p) :=
  ⟨by simpa using h.cmd, by simpa using h.faults, by simpa using h.status, by simpa using h.written, by simpa using h.last⟩

theorem State.GoesOn.waitFail (h : s.GoesOn u) (w : Wait) : s.SeqEffect (u.waitFail w) := by
  unfold State.waitFail
  split
  · exact .goesOn (h.moved _ _)
  · exact .completes h _

theorem State.GoesOn.delayReturn (h : s.GoesOn u) : s.SeqEffect u.delayReturn := by
  rcases u.delayReturn_cases with ⟨_, e⟩ | ⟨p, _, e⟩ <;> rw [e]
  · exact .completes h _
  · exact .goesOn (h.goto p)

end

/-! The effect of each shared operation. -/

theorem State.emit_goesOn {e : Event} (he : e.isComplete = false) (s : State) : s.GoesOn (s.emit e) :=
  .of_event (s.emit_hist e) he rfl rfl rfl

theorem State.pread_goesOn (r : PReg) (s : State) : s.GoesOn (s.pread r) :=
  .of_event (s.pread_hist r) rfl (s.pread_cmd r) (s.pread_faults r) (s.pread_res r)

theorem State.pwrite_goesOn (r : PReg) (v : Word) (s : State) : s.GoesOn (s.pwrite r v) :=
  .of_event (s.pwrite_hist r v) rfl rfl rfl rfl

theorem State.setStop_goesOn (s : State) : s.GoesOn s.setStop := .of_event s.setStop_hist rfl rfl rfl rfl

theorem State.uifClear_goesOn (s : State) : s.GoesOn s.uifClear := .of_event s.uifClear_hist rfl rfl rfl rfl

theorem State.mstArm_goesOn (s : State) : s.GoesOn s.mstArm := .of_event s.mstArm_hist rfl rfl rfl rfl

theorem State.drive_goesOn (l : Bool) (s : State) : s.GoesOn (s.drive l) := .of_event (s.drive_hist l) rfl rfl rfl rfl

theorem State.memRead_goesOn (a : Word) (s : State) : s.GoesOn (s.memRead a) := .of_event (s.memRead_hist a) rfl rfl rfl rfl

theorem State.memWrite_goesOn (a : Word) (v : Byte) (s : State) : s.GoesOn (s.memWrite a v) :=
  .of_event (s.memWrite_hist a v) rfl rfl rfl rfl

theorem State.echoSample_goesOn (s : State) : s.GoesOn s.echoSample :=
  .of_event s.echoSample_hist rfl s.echoSample_cmd s.echoSample_faults s.echoSample_res

theorem State.polled_goesOn (s : State) : s.GoesOn s.polled := (s.pread_goesOn .status).moved _ _

theorem State.waitStep_effect {w : Wait} {n : Phase} {s : State} (hp : s.phase = w.phase) : s.SeqEffect (s.waitStep w n) := by
  rcases State.waitStep_cases (n := n) hp with ⟨_, h⟩ | ⟨_, _, h⟩ | ⟨_, _, _, h⟩ | ⟨_, _, _, h⟩ <;> rw [h]
  · exact .goesOn ((s.pread_goesOn _).goto n)
  · exact .goesOn (s.pread_goesOn _)
  · exact s.polled_goesOn.waitFail w
  · exact .goesOn s.polled_goesOn

theorem State.abortPoll_effect (s : State) : s.SeqEffect s.abortPoll := by
  rcases s.abortPoll_cases with ⟨_, h⟩ | ⟨_, _, h⟩ | ⟨_, _, h⟩ <;> rw [h]
  · exact .goesOn ((s.pread_goesOn _).moved _ _)
  · exact .goesOn (s.polled_goesOn.moved _ _)
  · exact .goesOn (s.polled_goesOn.moved _ _)

theorem State.duEntry_effect (s : State) : s.SeqEffect s.duEntry := by
  rcases s.duEntry_cases with ⟨_, h⟩ | ⟨_, h⟩ <;> rw [h]
  · exact (State.GoesOn.refl s).delayReturn
  · exact .goesOn (s.uifClear_goesOn.moved _ _)

theorem State.duWait_effect (s : State) : s.SeqEffect s.duWait := by
  rcases s.duWait_cases with ⟨_, h⟩ | ⟨_, h⟩ <;> rw [h]
  · exact .goesOn ((s.emit_goesOn rfl).moved _ _)
  · exact .goesOn (.refl s)

theorem State.duClear_effect (s : State) : s.SeqEffect s.duClear := by
  rcases s.duClear_cases with ⟨_, h⟩ | ⟨_, h⟩ <;> rw [h]
  · exact (s.uifClear_goesOn.moved _ _).delayReturn
  · exact .goesOn (s.uifClear_goesOn.moved _ _)

theorem State.dmArm_effect (s : State) : s.SeqEffect s.dmArm := by
  rcases s.dmArm_cases with ⟨_, h⟩ | ⟨_, h⟩ <;> rw [h]
  · exact (State.GoesOn.refl s).delayReturn
  · exact .goesOn (s.mstArm_goesOn.moved _ _)

theorem State.dmWait_effect (s : State) : s.SeqEffect s.dmWait := by
  rcases s.dmWait_cases with ⟨_, h⟩ | ⟨_, h⟩ <;> rw [h]
  · exact .goesOn ((s.emit_goesOn rfl).moved _ _)
  · exact .goesOn (.refl s)

theorem State.ckInit_effect (s : State) : s.SeqEffect s.ckInit := by
  unfold State.ckInit
  split
  · exact .reinit
  · refine .completes ?_ _
    exact .of_event rfl rfl s.dropDraw_cmd s.dropDraw_faults s.dropDraw_res

theorem State.ckNow_effect (s : State) : s.SeqEffect s.ckNow := by
  unfold State.ckNow
  refine .completes ?_ _
  exact ⟨rfl, rfl, rfl, rfl, lastStatus_append_of_not_complete rfl _⟩

theorem State.clear_complete_effect (v : Word) (c : Code) (s : State) : s.SeqEffect ((s.pwrite .clear v).complete c) :=
  .completes (s.pwrite_goesOn _ _) c

theorem State.sampleA_effect (timeout : Word) (s : State) : s.SeqEffect (s.sampleA timeout) := by
  unfold State.sampleA
  split
  · exact .goesOn (s.echoSample_goesOn.moved _ _)
  · split <;> exact .goesOn (s.echoSample_goesOn.moved _ _)

theorem State.sampleB_effect (timeout : Word) (s : State) : s.SeqEffect (s.sampleB timeout) := by
  unfold State.sampleB
  split
  · exact .goesOn (s.echoSample_goesOn.moved _ _)
  · split <;> exact .goesOn (s.echoSample_goesOn.moved _ _)

theorem State.rgSettle_effect (s : State) : s.SeqEffect s.rgSettle := by
  unfold State.rgSettle
  refine .completes ?_ _
  exact ⟨rfl, rfl, rfl, rfl, rfl⟩

theorem State.txFetch_effect {buf : Word} {s t : State} (h : s.txFetch buf = .next t) : s.SeqEffect t := by
  obtain ⟨_, rfl⟩ := State.txFetch_next h
  exact .goesOn ((s.memRead_goesOn _).moved _ _)

theorem State.rxStore_effect {count : Byte} {buf : Word} {s t : State} (h : s.rxStore count buf = .next t) : s.SeqEffect t := by
  obtain ⟨_, rfl⟩ := State.rxStore_next h
  exact .goesOn (((s.memWrite_goesOn _ _).moved _ _).goto _)

theorem State.pwrite_goto_effect (r : PReg) (v : Word) (p : Phase) (s : State) : s.SeqEffect ((s.pwrite r v).goto p) :=
  .goesOn ((s.pwrite_goesOn r v).goto p)

/-- `PWrite` and the next phase, with a change of working registers between them. -/
theorem State.pwrite_work_goto_effect (r : PReg) (v : Word) (x : Work) (p : Phase) (s : State) :
    s.SeqEffect (State.goto p { s.pwrite r v with work := x }) :=
  .goesOn (((s.pwrite_goesOn r v).moved x _).goto p)

theorem State.setStop_goto_effect (p : Phase) (s : State) : s.SeqEffect (s.setStop.goto p) := .goesOn (s.setStop_goesOn.goto p)

/-! The effect of one SEQ step of each command, phase by phase in the order of the meaning's arms. -/

section
variable {s t : State}

theorem execInitClock_effect (h : execInitClock s = .next t) : s.SeqEffect t := by
  unfold execInitClock at h
  split at h <;> cases h
  · exact .goesOn (.goto (.refl s) _)
  · exact s.ckInit_effect

theorem execClockNow_effect (h : execClockNow s = .next t) : s.SeqEffect t := by
  unfold execClockNow at h
  split at h <;> cases h
  · exact .goesOn (.goto (.refl s) _)
  · exact s.ckNow_effect

theorem execDelayUs_effect {n : Word} (h : execDelayUs n s = .next t) : s.SeqEffect t := by
  unfold execDelayUs at h
  split at h <;> cases h
  · exact .goesOn ((State.GoesOn.refl s).moved _ _)
  · exact s.duEntry_effect
  · exact s.duWait_effect
  · exact s.duClear_effect

theorem execDelayMs_effect {n : Word} (h : execDelayMs n s = .next t) : s.SeqEffect t := by
  unfold execDelayMs at h
  split at h <;> cases h
  · exact .goesOn ((State.GoesOn.refl s).moved _ _)
  · exact s.dmArm_effect
  · exact s.dmWait_effect

theorem execI2cWriteByte_effect {a : Addr7} {b : Byte} (h : execI2cWriteByte a b s = .next t) : s.SeqEffect t := by
  unfold execI2cWriteByte at h
  split at h <;> cases h
  · exact .goesOn (.goto (.refl s) _)
  · exact State.waitStep_effect ‹_›
  · exact s.pwrite_goto_effect _ _ _
  · exact State.waitStep_effect ‹_›
  · exact s.pwrite_goto_effect _ _ _
  · exact State.waitStep_effect ‹_›
  · exact s.setStop_goto_effect _
  · exact State.waitStep_effect ‹_›
  · exact s.clear_complete_effect _ _
  · exact .goesOn (s.setStop_goesOn.moved _ _)
  · exact s.abortPoll_effect
  · exact s.clear_complete_effect _ _

theorem execI2cWriteBytes_effect {a : Addr7} {c : Byte} {buf : Word} (h : execI2cWriteBytes a c buf s = .next t) :
    s.SeqEffect t := by
  unfold execI2cWriteBytes at h
  split at h
  -- the fetch is the only phase that may stop on an access (20_memory R69)
  case h_5 => exact State.txFetch_effect h
  all_goals cases h
  · exact .goesOn (.goto (.refl s) _)
  · exact State.waitStep_effect ‹_›
  · exact s.pwrite_work_goto_effect _ _ _ _
  · exact State.waitStep_effect ‹_›
  · exact s.pwrite_work_goto_effect _ _ _ _
  · exact State.waitStep_effect ‹_›
  · exact s.setStop_goto_effect _
  · exact State.waitStep_effect ‹_›
  · exact s.clear_complete_effect _ _
  · exact .goesOn (s.setStop_goesOn.moved _ _)
  · exact s.abortPoll_effect
  · exact s.clear_complete_effect _ _

theorem execI2cReadBytes_effect {a : Addr7} {r c : Byte} {buf : Word} (h : execI2cReadBytes a r c buf s = .next t) :
    s.SeqEffect t := by
  unfold execI2cReadBytes at h
  split at h
  -- the store is the only phase that may stop on an access (20_memory R69)
  case h_10 => exact State.rxStore_effect h
  all_goals cases h
  · exact .goesOn (.goto (.refl s) _)
  · exact State.waitStep_effect ‹_›
  · exact s.pwrite_goto_effect _ _ _
  · exact State.waitStep_effect ‹_›
  · exact s.pwrite_goto_effect _ _ _
  · exact State.waitStep_effect ‹_›
  · exact s.pwrite_work_goto_effect _ _ _ _
  · exact State.waitStep_effect ‹_›
  · exact .goesOn ((s.pread_goesOn _).moved _ _)
  · exact State.waitStep_effect ‹_›
  · exact s.clear_complete_effect _ _
  · exact .goesOn (s.setStop_goesOn.moved _ _)
  · exact s.abortPoll_effect
  · exact s.clear_complete_effect _ _

theorem execMeasure_effect {timeout : Word} (h : execMeasure timeout s = .next t) : s.SeqEffect t := by
  unfold execMeasure at h
  split at h <;> cases h
  · exact .goesOn (.goto (.refl s) _)
  · exact .goesOn ((s.drive_goesOn _).moved _ _)
  · exact .goesOn ((s.drive_goesOn _).moved _ _)
  · exact .goesOn ((s.drive_goesOn _).moved _ _)
  · exact s.sampleA_effect timeout
  · exact s.sampleB_effect timeout
  · exact s.rgSettle_effect
  · exact s.duEntry_effect
  · exact s.duWait_effect
  · exact s.duClear_effect
  · exact s.dmArm_effect
  · exact s.dmWait_effect

theorem exec_effect {i : Instr} (h : exec i s = .next t) : s.SeqEffect t := by
  cases i with
  | initClock => exact execInitClock_effect h
  | clockNow => exact execClockNow_effect h
  | delayUs n => exact execDelayUs_effect h
  | delayMs n => exact execDelayMs_effect h
  | i2cWriteByte addr data => exact execI2cWriteByte_effect h
  | i2cWriteBytes addr count buf => exact execI2cWriteBytes_effect h
  | i2cReadBytes addr reg count buf => exact execI2cReadBytes_effect h
  | measure timeout => exact execMeasure_effect h

end

/-- SEQ's turn passes after SEQ's own fault; else it has an effect of a SEQ step (a turn that passes in `IDLE` goes on). -/
theorem State.seqStep_effect {s t : State} (h : s.seqStep = .next t) :
    (s.seqFaulted = true ∧ t = s) ∨ (s.seqFaulted = false ∧ s.SeqEffect t) := by
  rcases State.seqStep_cases h with ⟨hf, e⟩ | ⟨hf, _, e⟩ | ⟨hf, _, e⟩ | ⟨hf, _, _, e⟩
  · cases e; exact .inl ⟨hf, rfl⟩
  · cases e; exact .inr ⟨hf, .goesOn (.refl s)⟩
  · unfold State.decodeStep at e
    split at e
    · exact .inr ⟨hf, exec_effect e.symm⟩
    · cases e; exact .inr ⟨hf, .completes (.refl s) _⟩
  · unfold State.phaseStep at e
    split at e
    · exact .inr ⟨hf, exec_effect e.symm⟩
    · cases e

/-! `RES_STATUS` follows `HIST`. -/

theorem State.complete_statusIsLast (c : Code) (s : State) : (s.complete c).StatusIsLast := by
  simp [State.StatusIsLast]

theorem State.GoesOn.statusIsLast {s t : State} (g : s.GoesOn t) (h : s.StatusIsLast) : t.StatusIsLast := by
  obtain ⟨hw, hs⟩ := h
  exact ⟨by rw [g.written, g.last, hw], fun c hc => by rw [g.status, hs c (by rw [← g.last, hc])]⟩

theorem State.raise_statusIsLast {s : State} (f : ModelFault) (h : s.StatusIsLast) : (s.raise f).StatusIsLast := by
  simpa [State.StatusIsLast, lastStatus_append_of_not_complete (e := .fault f) rfl] using h

theorem State.SeqEffect.statusIsLast {s t : State} (g : s.SeqEffect t) (h : s.StatusIsLast) : t.StatusIsLast := by
  cases g with
  | goesOn g => exact g.statusIsLast h
  | completes g c => exact State.complete_statusIsLast c _
  | reinit => exact State.raise_statusIsLast _ h

theorem State.act_statusIsLast {m : Move} {s t : State} (h : s.StatusIsLast) (e : s.act m = .next t) : t.StatusIsLast := by
  rcases State.act_next e with ⟨_, e⟩ | ⟨_, _, rfl⟩ | ⟨_, _, rfl⟩ | ⟨d, _, _, rfl⟩ | ⟨r, _, _, e⟩ | ⟨a, v, _, _, e⟩ | ⟨_, rfl⟩
  · rcases State.seqStep_effect e with ⟨_, rfl⟩ | ⟨_, g⟩
    · exact h
    · exact g.statusIsLast h
  · exact State.GoesOn.statusIsLast (.of_event s.tick_hist rfl rfl rfl rfl) h
  · exact State.GoesOn.statusIsLast (.of_event s.msExpire_hist rfl rfl rfl rfl) h
  · rcases s.issue_cases d with ⟨_, e⟩ | ⟨_, e⟩ <;> rw [e]
    · have last := lastStatus_append_of_not_complete (e := .issue d) rfl s.hist
      simpa [State.StatusIsLast, last] using h
    · exact State.raise_statusIsLast _ h
  · obtain ⟨_, ⟨v, _, rfl⟩ | ⟨_, rfl⟩⟩ := State.hostRead_next e
    · exact h
    · exact State.raise_statusIsLast _ h
  · obtain ⟨_, rfl⟩ := State.hostStore_next e
    exact h
  · exact h

/-- Settles O48: a completion sets `RES_STATUS` and is the last one in `HIST`; every other move leaves both. -/
theorem statusIsLast : Obligations.StatusIsLast := by
  intro s t h e
  exact State.act_statusIsLast (s := s.dropMove) (by simpa [State.StatusIsLast] using h) e

/-! Faults stay. -/

/-- A move records no fault, or raises one of the agent that moves, which has none yet (60_exceptions R212). -/
theorem State.act_faults {m : Move} {s t : State} (h : s.act m = .next t) :
    t.faults = s.faults ∨ ∃ f, t = s.raise f ∧ (f = .clockReinit ∨ s.hostFaulted = false) := by
  rcases State.act_next h with ⟨_, e⟩ | ⟨_, _, rfl⟩ | ⟨_, _, rfl⟩ | ⟨d, _, hf, rfl⟩ | ⟨r, _, hf, e⟩ | ⟨a, v, _, _, e⟩ | ⟨_, rfl⟩
  · rcases State.seqStep_effect e with ⟨_, rfl⟩ | ⟨_, g⟩
    · exact .inl rfl
    · cases g with
      | goesOn g => exact .inl g.faults
      | completes g c => exact .inl g.faults
      | reinit => exact .inr ⟨_, rfl, .inl rfl⟩
  · exact .inl rfl
  · exact .inl rfl
  · rcases s.issue_cases d with ⟨_, e⟩ | ⟨_, e⟩ <;> rw [e]
    · exact .inl rfl
    · exact .inr ⟨_, rfl, .inr hf⟩
  · obtain ⟨_, ⟨v, _, rfl⟩ | ⟨_, rfl⟩⟩ := State.hostRead_next e
    · exact .inl rfl
    · exact .inr ⟨_, rfl, .inr hf⟩
  · obtain ⟨_, rfl⟩ := State.hostStore_next e
    exact .inl rfl
  · exact .inl rfl

/-- After `CLOCK_REINIT` no move changes SEQ's registers, the peripheral's or the trigger, and only an issue in `IDLE` changes
`PHASE`. -/
theorem State.act_of_reinit {m : Move} {s t : State} (hf : s.faults.clockReinit = true) (h : s.act m = .next t) :
    (t.phase = s.phase ∨ s.phase = .idle) ∧ t.work = s.work ∧ t.res = s.res ∧ t.per = s.per ∧ t.trig = s.trig := by
  rcases State.act_next h with ⟨_, e⟩ | ⟨_, _, rfl⟩ | ⟨_, _, rfl⟩ | ⟨d, _, _, rfl⟩ | ⟨r, _, _, e⟩ | ⟨a, v, _, _, e⟩ | ⟨_, rfl⟩
  · rcases State.seqStep_effect e with ⟨_, rfl⟩ | ⟨hn, _⟩
    · exact ⟨.inl rfl, rfl, rfl, rfl, rfl⟩
    · rw [State.seqFaulted, hf] at hn; cases hn
  · exact ⟨.inl rfl, rfl, rfl, rfl, rfl⟩
  · exact ⟨.inl rfl, rfl, rfl, rfl, rfl⟩
  · rcases s.issue_cases d with ⟨hi, e⟩ | ⟨_, e⟩ <;> rw [e]
    · exact ⟨.inr hi, rfl, rfl, rfl, rfl⟩
    · exact ⟨.inl rfl, rfl, rfl, rfl, rfl⟩
  · obtain ⟨_, ⟨v, _, rfl⟩ | ⟨_, rfl⟩⟩ := State.hostRead_next e
    · exact ⟨.inl rfl, rfl, rfl, rfl, rfl⟩
    · exact ⟨.inl rfl, rfl, rfl, rfl, rfl⟩
  · obtain ⟨_, rfl⟩ := State.hostStore_next e
    exact ⟨.inl rfl, rfl, rfl, rfl, rfl⟩
  · exact ⟨.inl rfl, rfl, rfl, rfl, rfl⟩

@[simp] theorem State.dropMove_hostFaulted (s : State) : s.dropMove.hostFaulted = s.hostFaulted := by
  simp [State.hostFaulted]

theorem State.hostStep_of_not_faulted {act : State → Result} {s : State} (h : s.hostFaulted = false) :
    s.hostStep act = act s := by
  simp [State.hostStep, h]

theorem State.hostStep_of_faulted {act : State → Result} {s : State} (h : s.hostFaulted = true) : s.hostStep act = .next s := by
  simp [State.hostStep, h]

/-- A turn of HOST after its own fault passes (log 11). -/
theorem step_of_hostFaulted {s : State} (h : s.hostFaulted = true) (hs : s.move ≠ .seq) (ht : s.move ≠ .tick)
    (hm : s.move ≠ .msExpire) : step s = .next s.dropMove := by
  have passes : ∀ act, s.dropMove.hostStep act = .next s.dropMove :=
    fun act => State.hostStep_of_faulted (by simpa using h)
  rw [step, State.machineStep_eq]
  cases e : s.move with
  | seq => exact absurd e hs
  | tick => exact absurd e ht
  | msExpire => exact absurd e hm
  | _ => simp only [State.act, passes]

/-- An added fault keeps `CLOCK_REINIT`. -/
theorem Faults.clockReinit_add (f : ModelFault) {x : Faults} (h : x.clockReinit = true) : (x.add f).clockReinit = true := by
  cases f with
  | clockReinit => rfl
  | _ => exact h

/-- A fault raised by an agent that has none keeps what HOST's faults recorded. -/
theorem State.raise_keeps_hostFaults {f : ModelFault} {s : State} (hf : f = .clockReinit ∨ s.hostFaulted = false) :
    (s.faults.reentrant.isSome = true → (s.raise f).faults.reentrant = s.faults.reentrant) ∧
    (s.faults.unwrittenRead.isSome = true → (s.raise f).faults.unwrittenRead = s.faults.unwrittenRead) := by
  rcases hf with rfl | hf
  · exact ⟨fun _ => rfl, fun _ => rfl⟩
  · obtain ⟨hr, hu⟩ : s.faults.reentrant.isSome = false ∧ s.faults.unwrittenRead.isSome = false := by
      simpa only [State.hostFaulted, Bool.or_eq_false_iff] using hf
    exact ⟨fun h => by simp [hr] at h, fun h => by simp [hu] at h⟩

theorem State.act_keeps_faults {m : Move} {s t : State} (h : s.act m = .next t) :
    (s.faults.clockReinit = true → t.faults.clockReinit = true) ∧
    (s.faults.reentrant.isSome = true → t.faults.reentrant = s.faults.reentrant) ∧
    (s.faults.unwrittenRead.isSome = true → t.faults.unwrittenRead = s.faults.unwrittenRead) := by
  rcases State.act_faults h with e | ⟨f, rfl, hf⟩
  · rw [e]; exact ⟨id, fun _ => rfl, fun _ => rfl⟩
  · exact ⟨Faults.clockReinit_add f, State.raise_keeps_hostFaults hf⟩

/-- Settles O50: a fault is only added, by its own agent, and in a step that does nothing else; a faulted agent's turn passes. -/
theorem faultsStay : Obligations.FaultsStay := by
  refine ⟨fun s t h => ?_, fun s t h hf => ?_, fun s => step_of_hostFaulted, fun s t h hne => ?_⟩
  · simpa using State.act_keeps_faults (s := s.dropMove) h
  · simpa using State.act_of_reinit (s := s.dropMove) (by simpa using hf) h
  · rcases State.act_faults (s := s.dropMove) h with e | ⟨f, rfl, _⟩
    · exact absurd (by simpa using e) hne
    · simp

/-! Refusals of HOST (O11). -/

theorem State.hostRead_refused {r : Nat} (h : 6 ≤ r) (s : State) : s.hostRead r = .refused (.hostNoSuchRegister r) := by
  simp [State.hostRead, h]

theorem State.hostWrite_refused {r : Nat} (h : r ≤ 5) (v : Word) (s : State) :
    s.hostWrite r v = .refused (.hostRegisterReadOnly r) := by
  simp [State.hostWrite, show ¬ 6 ≤ r by omega]

/-- Settles O11: a turn of an unfaulted HOST makes its move, and these three are refused. -/
theorem hostRefusals : Obligations.HostRefusals := by
  have turn : ∀ (s : State) (act : State → Result), s.hostFaulted = false → s.dropMove.hostStep act = act s.dropMove :=
    fun s act hf => State.hostStep_of_not_faulted (by simpa using hf)
  refine ⟨fun s r hm hf hr => ?_, fun s r v hm hf hr => ?_, fun s hm hf => ?_⟩ <;> rw [step, State.machineStep_eq, hm]
  · exact (turn s _ hf).trans (State.hostRead_refused hr _)
  · exact (turn s _ hf).trans (State.hostWrite_refused hr v _)
  · exact turn s (fun _ => .refused .hostCommandPortWriteOnly) hf

end Sys2Proof.Machine
end

/-! ### Reset (O57, O58) -/

section
namespace Sys2Proof.Machine

/-- A counter value cut to `CLK_W` bits fits them, in 32 bits too. -/
theorem toNat_ofNat_mod_lt (n w : Nat) : (BitVec.ofNat 32 (n % 2 ^ w)).toNat < 2 ^ w :=
  (Nat.mod_le _ _).trans_lt (Nat.mod_lt _ (Nat.two_pow_pos w))

/-- Settles O57: every conjunct is a field of the reset state; `CNT` is cut to its width. -/
theorem resetState : Obligations.ResetState :=
  ⟨rfl, rfl, rfl, rfl, rfl, rfl, rfl, rfl, rfl, toNat_ofNat_mod_lt _ _, rfl, rfl, rfl⟩

theorem Config.hardware_wellFormed : Config.hardware.wellFormed = true := by
  have polls : 1 ≤ Config.hardware.pollLimit := Nat.succ_pos _
  have low : 1 ≤ Config.hardware.clkW := Nat.succ_pos _
  have high : Config.hardware.clkW ≤ 32 := Config.clkWidthLessOne.isLt
  simp [Config.wellFormed, polls, low, high]

/-- Settles O58: SEQ is idle, so the clauses about phases say nothing; the others hold by the values of reset. -/
theorem resetInv : Obligations.ResetInv where
  cfg := Config.hardware_wellFormed
  mem := Memory.wf_reset
  cnt := toNat_ofNat_mod_lt _ _
  status := rfl
  ekind := .inl rfl
  sentinel := fun _ => rfl
  range := ⟨fun _ => rfl, rfl⟩
  armed := nofun
  polls := nofun
  cmd := rfl
  point := fun h => absurd rfl h
  abort := nofun
  reinit := nofun
  waits := ⟨fun h => by cases h <;> contradiction, nofun⟩

end Sys2Proof.Machine
end

/-! ### No command reads a stale working register (O56) -/

section
namespace Sys2Proof.Machine

/-- `s` with other contents of the working registers. -/
def State.withWork (v : Work) (s : State) : State := { s with work := v }

@[simp] theorem State.polled_phase (s : State) : s.polled.phase = s.phase := s.pread_phase .status

@[simp] theorem State.polled_work (s : State) : s.polled.work = { s.work with polls := s.work.polls + 1 } := by
  simp [State.polled]

/-! What the operations do to a state with other working registers. -/

section
variable (v : Work) (s : State)

@[simp] theorem State.withWork_cfg : (s.withWork v).cfg = s.cfg := rfl
@[simp] theorem State.withWork_phase : (s.withWork v).phase = s.phase := rfl
@[simp] theorem State.withWork_cmd : (s.withWork v).cmd = s.cmd := rfl
@[simp] theorem State.withWork_work : (s.withWork v).work = v := rfl
@[simp] theorem State.withWork_clk : (s.withWork v).clk = s.clk := rfl
@[simp] theorem State.withWork_mst : (s.withWork v).mst = s.mst := rfl
@[simp] theorem State.withWork_preadValue : (s.withWork v).preadValue = s.preadValue := rfl
@[simp] theorem State.withWork_echoLevel : (s.withWork v).echoLevel = s.echoLevel := rfl
@[simp] theorem State.withWork_draw : (s.withWork v).draw = s.draw := rfl
@[simp] theorem State.withWork_admitted (a : Word) : (s.withWork v).admitted a = s.admitted a := rfl
@[simp] theorem State.withWork_memByte (a : Word) : (s.withWork v).memByte a = s.memByte a := rfl

@[simp] theorem State.dropDraw_withWork : (s.withWork v).dropDraw = s.dropDraw.withWork v := by
  cases h : s.env.draws <;> simp [State.dropDraw, State.withWork, h]

@[simp] theorem State.dropMove_withWork : (s.withWork v).dropMove = s.dropMove.withWork v := by
  cases h : s.env.moves <;> simp [State.dropMove, State.withWork, h]

@[simp] theorem State.pread_withWork (r : PReg) : (s.withWork v).pread r = (s.pread r).withWork v := by
  simp only [State.pread, State.dropDraw_withWork]; rfl

@[simp] theorem State.echoSample_withWork : (s.withWork v).echoSample = s.echoSample.withWork v := by
  simp only [State.echoSample, State.dropDraw_withWork]; rfl

theorem State.goto_withWork (p : Phase) : (s.withWork v).goto p =
    (s.goto p).withWork (if p.isPoll && p != s.phase then { v with polls := 0 } else v) := by
  unfold State.goto State.withWork; split <;> rfl

end

/-! The working registers whose contents still matter. -/

/-- Two working-register files agree on what is read after a delay that returns to `r`: the echo count at a sample, the outcome of
READ_ECHO at the end (42_ranger R181, R183). No delay returns to another phase. -/
def Work.AgreesAfter (r : Ret) (w v : Work) : Prop :=
  match r with
  | .done => True
  | .back .rgTrig1 => True
  | .back .rgTrig2 => True
  | .back .rgASample => w.ecnt = v.ecnt
  | .back .rgBSample => w.ecnt = v.ecnt
  | .back .rgSettle => w.val = v.val ∧ w.dur = v.dur ∧ w.ekind = v.ekind
  | .back _ => False

/-- Two working-register files agree on what command `i` reads at phase `p` or later before it writes it. -/
def Work.AgreesAt (i : Instr) (p : Phase) (w v : Work) : Prop :=
  match p with
  | .i2IdlePoll => w.polls = v.polls
  | .i2TcPoll => w.polls = v.polls
  | .i2StopfPoll => w.polls = v.polls
  | .i2TxPoll => w.polls = v.polls ∧ (i.needsByte .i2TxPoll ≠ none → w.idx = v.idx)
  | .i2RxPoll => w.polls = v.polls ∧ (i.needsByte .i2RxPoll ≠ none → w.idx = v.idx)
  | .i2TxFetch => w.idx = v.idx
  | .i2RxRead => w.idx = v.idx
  | .i2TxWrite => i.needsByte .i2TxWrite ≠ none → w.idx = v.idx ∧ w.byte = v.byte
  | .i2RxStore => w.idx = v.idx ∧ w.byte = v.byte
  | .i2AbStop => w.err = v.err
  | .i2AbPoll => w.polls = v.polls ∧ w.err = v.err
  | .i2AbClear => w.err = v.err
  | .duEntry => w.drem = v.drem ∧ w.ret = v.ret ∧ Work.AgreesAfter w.ret w v
  | .duWait => w.drem = v.drem ∧ w.ret = v.ret ∧ Work.AgreesAfter w.ret w v
  | .duClear => w.drem = v.drem ∧ w.ret = v.ret ∧ Work.AgreesAfter w.ret w v
  | .dmArm => w.mrem = v.mrem ∧ w.ret = v.ret ∧ Work.AgreesAfter w.ret w v
  | .dmWait => w.mrem = v.mrem ∧ w.ret = v.ret ∧ Work.AgreesAfter w.ret w v
  | .rgASample => Work.AgreesAfter (.back .rgASample) w v
  | .rgBSample => Work.AgreesAfter (.back .rgBSample) w v
  | .rgSettle => Work.AgreesAfter (.back .rgSettle) w v
  | _ => True

/-- Where a delay returns nothing more is read than the delay has kept. -/
theorem Work.AgreesAfter.agreesAt {p : Phase} {w v : Work} (i : Instr) (h : Work.AgreesAfter (.back p) w v) :
    p.isPoll = false ∧ w.AgreesAt i p v := by
  cases p with
  | rgTrig1 => exact ⟨rfl, trivial⟩
  | rgTrig2 => exact ⟨rfl, trivial⟩
  | rgASample => exact ⟨rfl, h⟩
  | rgBSample => exact ⟨rfl, h⟩
  | rgSettle => exact ⟨rfl, h⟩
  | _ => exact h.elim

theorem Work.AgreesAt.polls_eq {i : Instr} {wt : Wait} {w v : Work} (h : w.AgreesAt i wt.phase v) : w.polls = v.polls := by
  cases wt with
  | idle => exact h
  | tx => exact h.1
  | rx => exact h.1
  | tc => exact h
  | stopf => exact h

/-- Agreement at a wait is agreement on `POLLS` and on what else is read later. -/
theorem Work.AgreesAt.setPolls {i : Instr} {wt : Wait} {w v : Work} (h : w.AgreesAt i wt.phase v) (n : Nat) :
    Work.AgreesAt i wt.phase { w with polls := n } { v with polls := n } := by
  cases wt with
  | idle => exact rfl
  | tx => exact ⟨rfl, h.2⟩
  | rx => exact ⟨rfl, h.2⟩
  | tc => exact rfl
  | stopf => exact rfl

/-- `t'` is `t` with other working registers that agree on what command `i` still reads. -/
def State.Alike (i : Instr) (t t' : State) : Prop := ∃ v, t' = t.withWork v ∧ t.work.AgreesAt i t.phase v

/-- Where `r` goes through, `r'` does, and to a state alike. -/
def ResultAlike (i : Instr) (r r' : Result) : Prop := ∀ t, r = .next t → ∃ t', r' = .next t' ∧ State.Alike i t t'

/-! Each operation of SEQ takes states alike to states alike. -/

section
variable {i : Instr} {s t t' : State} {v : Work}

theorem ResultAlike.next (h : State.Alike i t t') : ResultAlike i (.next t) (.next t') :=
  fun _ e => ⟨t', rfl, Host.Outcome.next.inj e ▸ h⟩

theorem ResultAlike.fault {f : Fault} {r : Result} : ResultAlike i (.fault f) r := fun _ e => by cases e

theorem State.complete_alike (i : Instr) (c : Code) (s : State) (v : Work) :
    State.Alike i (s.complete c) ((s.withWork v).complete c) := ⟨v, rfl, trivial⟩

/-- Entering a phase that polls nothing keeps the working registers. -/
theorem State.goto_alike {p : Phase} (hp : p.isPoll = false) (h : s.work.AgreesAt i p v) :
    State.Alike i (s.goto p) ((s.withWork v).goto p) := by
  refine ⟨v, by simp [State.goto_withWork, hp], ?_⟩
  simpa [State.goto_work, hp] using h

/-- Entering a poll phase from another phase clears `POLLS`. -/
theorem State.goto_poll_alike {p : Phase} (hp : p.isPoll = true) (hs : p ≠ s.phase)
    (h : Work.AgreesAt i p { s.work with polls := 0 } { v with polls := 0 }) :
    State.Alike i (s.goto p) ((s.withWork v).goto p) := by
  refine ⟨{ v with polls := 0 }, by simp [State.goto_withWork, hp, hs], ?_⟩
  simpa [State.goto_work, hp, hs] using h

/-- A poll phase that is entered from itself stays as it was. -/
theorem State.goto_self_alike {p : Phase} (hs : s.phase = p) (h : s.work.AgreesAt i p v) :
    State.Alike i (s.goto p) ((s.withWork v).goto p) := by
  refine ⟨v, by simp [State.goto_withWork, hs], ?_⟩
  simpa [State.goto_work, hs] using h

theorem State.waitFail_alike (w : Wait) (s : State) (v : Work) :
    State.Alike i (s.waitFail w) ((s.withWork v).waitFail w) := by
  unfold State.waitFail
  split
  · exact ⟨{ v with err := w.err.code }, rfl, rfl⟩
  · exact s.complete_alike i _ v

theorem State.waitStep_alike {w : Wait} {n : Phase} (hp : s.phase = w.phase) (hn : n.isPoll = false)
    (h : s.work.AgreesAt i w.phase v) (next : s.work.AgreesAt i n v) :
    State.Alike i (s.waitStep w n) ((s.withWork v).waitStep w n) := by
  unfold State.waitStep
  simp only [State.withWork_preadValue, State.withWork_cfg, State.withWork_work, State.pread_withWork, ← h.polls_eq]
  split
  · exact State.goto_alike hn (by simpa using next)
  · split
    · exact State.goto_self_alike (by simpa using hp) (by simpa using h)
    · split
      · exact State.waitFail_alike w s.polled { v with polls := s.work.polls + 1 }
      · exact State.goto_self_alike (s := s.polled) (v := { v with polls := s.work.polls + 1 })
          (by simpa using hp) (by simpa using h.setPolls (s.work.polls + 1))

theorem State.abortStop_alike (h : s.work.err = v.err) : State.Alike i s.abortStop (s.withWork v).abortStop :=
  ⟨{ v with polls := 0 }, rfl, rfl, h⟩

theorem State.abortPoll_alike (h : s.work.polls = v.polls ∧ s.work.err = v.err) :
    State.Alike i s.abortPoll (s.withWork v).abortPoll := by
  obtain ⟨hp, he⟩ := h
  unfold State.abortPoll
  simp only [State.withWork_preadValue, State.withWork_cfg, State.withWork_work, State.pread_withWork, ← hp]
  split
  · exact ⟨v, rfl, by simpa [Work.AgreesAt] using he⟩
  · split
    · exact ⟨{ v with polls := s.work.polls + 1 }, rfl, by simpa [Work.AgreesAt] using he⟩
    · exact ⟨{ v with polls := s.work.polls + 1 }, rfl, by simpa [Work.AgreesAt] using he⟩

theorem State.abortClear_alike (h : s.work.err = v.err) : State.Alike i s.abortClear (s.withWork v).abortClear := by
  unfold State.abortClear
  rw [State.withWork_work, ← h]
  exact State.complete_alike i _ (s.pwrite .clear clearWord) v

theorem State.stopfClear_alike (s : State) (v : Work) : State.Alike i s.stopfClear (s.withWork v).stopfClear :=
  State.complete_alike i _ (s.pwrite .clear clearWord) v

theorem State.delayReturn_alike (hr : s.work.ret = v.ret) (h : Work.AgreesAfter s.work.ret s.work v) :
    State.Alike i s.delayReturn (s.withWork v).delayReturn := by
  unfold State.delayReturn
  rw [State.withWork_work, ← hr]
  split
  · exact s.complete_alike i _ v
  · next p e =>
    rw [e] at h
    obtain ⟨hp, ha⟩ := h.agreesAt i
    exact State.goto_alike hp ha

theorem State.duEntry_alike (h : s.work.AgreesAt i .duEntry v) : State.Alike i s.duEntry (s.withWork v).duEntry := by
  obtain ⟨hd, hr, ha⟩ := h
  unfold State.duEntry
  rw [State.withWork_work, ← hd]
  split
  · exact State.delayReturn_alike hr ha
  · exact ⟨v, rfl, hd, hr, ha⟩

theorem State.duWait_alike (hp : s.phase = .duWait) (h : s.work.AgreesAt i .duWait v) :
    State.Alike i s.duWait (s.withWork v).duWait := by
  unfold State.duWait
  rw [State.withWork_clk]
  split
  · exact ⟨v, rfl, h⟩
  · exact ⟨v, rfl, hp ▸ h⟩

theorem State.duClear_alike (h : s.work.AgreesAt i .duClear v) : State.Alike i s.duClear (s.withWork v).duClear := by
  obtain ⟨hd, hr, ha⟩ := h
  unfold State.duClear
  rw [State.withWork_work, ← hd]
  split
  · exact State.delayReturn_alike (s := { s.uifClear with work.drem := s.work.drem - 1 })
      (v := { v with drem := s.work.drem - 1 }) hr ha
  · exact ⟨{ v with drem := s.work.drem - 1 }, rfl, rfl, hr, ha⟩

theorem State.dmArm_alike (h : s.work.AgreesAt i .dmArm v) : State.Alike i s.dmArm (s.withWork v).dmArm := by
  obtain ⟨hm, hr, ha⟩ := h
  unfold State.dmArm
  rw [State.withWork_work, ← hm]
  split
  · exact State.delayReturn_alike hr ha
  · exact ⟨v, rfl, hm, hr, ha⟩

theorem State.dmWait_alike (hp : s.phase = .dmWait) (h : s.work.AgreesAt i .dmWait v) :
    State.Alike i s.dmWait (s.withWork v).dmWait := by
  obtain ⟨hm, hr, ha⟩ := h
  unfold State.dmWait
  rw [State.withWork_mst, State.withWork_work, ← hm]
  split
  · exact ⟨{ v with mrem := s.work.mrem - 1 }, rfl, rfl, hr, ha⟩
  · exact ⟨v, rfl, hp ▸ ⟨hm, hr, ha⟩⟩

theorem State.ckInit_alike (hp : s.phase = .ckInit) (v : Work) : State.Alike i s.ckInit (s.withWork v).ckInit := by
  unfold State.ckInit
  simp only [State.withWork_clk, State.withWork_cfg, State.withWork_draw, State.dropDraw_withWork]
  split
  · exact ⟨v, rfl, by simp [Work.AgreesAt, hp]⟩
  · exact ⟨v, rfl, trivial⟩

theorem State.ckNow_alike (s : State) (v : Work) : State.Alike i s.ckNow (s.withWork v).ckNow := ⟨v, rfl, trivial⟩

theorem State.trigEnd_alike (s : State) (v : Work) : State.Alike i s.trigEnd (s.withWork v).trigEnd :=
  ⟨{ v with ecnt := 0 }, rfl, rfl⟩

theorem State.trigHold_alike {p : Phase} (l : Bool) (s : State) (v : Work) (hp : p = .rgTrig1 ∨ p = .rgTrig2) :
    State.Alike i (s.trigHold l p) ((s.withWork v).trigHold l p) := by
  refine ⟨{ v with drem := Config.trigUs, ret := .back p }, rfl, rfl, rfl, ?_⟩
  rcases hp with rfl | rfl <;> trivial

theorem State.settle_alike (val : Bool) (dur : Word) (ekind : Status) (s : State) (v : Work) :
    State.Alike i (s.settle val dur ekind) ((s.withWork v).settle val dur ekind) :=
  ⟨{ v with val := val, dur := dur, ekind := ekind.code, mrem := s.cfg.settleMs, ret := .back .rgSettle },
    rfl, rfl, rfl, rfl, rfl, rfl⟩

theorem State.sampleA_alike (timeout : Word) (h : s.work.ecnt = v.ecnt) :
    State.Alike i (s.sampleA timeout) ((s.withWork v).sampleA timeout) := by
  unfold State.sampleA
  simp only [State.withWork_echoLevel, State.withWork_work, State.echoSample_withWork, ← h]
  split
  · exact ⟨{ v with ecnt := 0 }, rfl, rfl⟩
  · split
    · exact State.settle_alike false 0 .echoRiseTimeout { s.echoSample with work.ecnt := s.work.ecnt + 1 }
        { v with ecnt := s.work.ecnt + 1 }
    · exact ⟨{ v with ecnt := s.work.ecnt + 1, drem := 1, ret := .back .rgASample }, rfl, rfl, rfl, rfl⟩

theorem State.sampleB_alike (timeout : Word) (h : s.work.ecnt = v.ecnt) :
    State.Alike i (s.sampleB timeout) ((s.withWork v).sampleB timeout) := by
  unfold State.sampleB
  simp only [State.withWork_echoLevel, State.withWork_work, State.echoSample_withWork, ← h]
  split
  · exact State.settle_alike true (s.work.ecnt.setWidth 32) .ok s.echoSample v
  · split
    · exact State.settle_alike false 0 .echoFallTimeout { s.echoSample with work.ecnt := s.work.ecnt + 1 }
        { v with ecnt := s.work.ecnt + 1 }
    · exact ⟨{ v with ecnt := s.work.ecnt + 1, drem := 1, ret := .back .rgBSample }, rfl, rfl, rfl, rfl⟩

theorem State.rgSettle_alike (h : s.work.AgreesAt i .rgSettle v) : State.Alike i s.rgSettle (s.withWork v).rgSettle := by
  obtain ⟨hv, hd, he⟩ := h
  unfold State.rgSettle
  rw [State.withWork_work, ← hv, ← hd, ← he]
  exact ⟨v, rfl, trivial⟩

theorem State.setStop_goto_alike (hp : s.phase = .i2Stop) (v : Work) :
    State.Alike i (s.setStop.goto .i2StopfPoll) ((s.withWork v).setStop.goto .i2StopfPoll) :=
  State.goto_poll_alike (s := s.setStop) rfl (by simp [hp]) rfl

theorem State.pwrite_goto_alike {p : Phase} (r : PReg) (x : Word) (hp : p.isPoll = true) (hs : p ≠ s.phase)
    (h : Work.AgreesAt i p { s.work with polls := 0 } { v with polls := 0 }) :
    State.Alike i ((s.pwrite r x).goto p) (((s.withWork v).pwrite r x).goto p) :=
  State.goto_poll_alike (s := s.pwrite r x) hp hs h

theorem State.startWrite_alike (hp : s.phase = .i2Start) (a : Addr7) (c : Byte) (v : Work) :
    State.Alike i (s.startWrite a c) ((s.withWork v).startWrite a c) := by
  unfold State.startWrite
  split
  · exact State.goto_poll_alike (s := { s.pwrite _ _ with work.idx := 0 }) (v := { v with idx := 0 }) rfl (by simp [hp]) rfl
  · exact State.goto_poll_alike (s := { s.pwrite _ _ with work.idx := 0 }) (v := { v with idx := 0 }) rfl (by simp [hp])
      ⟨rfl, fun _ => rfl⟩

theorem State.txWrite_alike (hp : s.phase = .i2TxWrite) (c : Byte) (hi : s.work.idx = v.idx) (hb : s.work.byte = v.byte) :
    State.Alike i (s.txWrite c) ((s.withWork v).txWrite c) := by
  unfold State.txWrite
  rw [State.withWork_work, ← hi, ← hb]
  split
  · exact State.goto_poll_alike (s := { s.pwrite _ _ with work.idx := s.work.idx + 1 }) (v := { v with idx := s.work.idx + 1 })
      rfl (by simp [hp]) ⟨rfl, fun _ => rfl⟩
  · exact State.goto_poll_alike (s := { s.pwrite _ _ with work.idx := s.work.idx + 1 }) (v := { v with idx := s.work.idx + 1 })
      rfl (by simp [hp]) rfl

theorem State.restart_alike (hp : s.phase = .i2Restart) (a : Addr7) (c : Byte) (v : Work) :
    State.Alike i (s.restart a c) ((s.withWork v).restart a c) := by
  unfold State.restart
  split
  · exact State.goto_poll_alike (s := { s.pwrite _ _ with work.idx := 0 }) (v := { v with idx := 0 }) rfl (by simp [hp]) rfl
  · exact State.goto_poll_alike (s := { s.pwrite _ _ with work.idx := 0 }) (v := { v with idx := 0 }) rfl (by simp [hp])
      ⟨rfl, fun _ => rfl⟩

theorem State.rxRead_alike (h : s.work.idx = v.idx) : State.Alike i s.rxRead (s.withWork v).rxRead := by
  unfold State.rxRead
  rw [State.pread_withWork]
  exact ⟨{ v with byte := rxdrByte s.preadValue }, rfl, by simpa [Work.AgreesAt] using h⟩

theorem State.txFetch_alike (buf : Word) (h : s.work.idx = v.idx) :
    ResultAlike i (s.txFetch buf) ((s.withWork v).txFetch buf) := by
  unfold State.txFetch
  rw [State.withWork_work, State.withWork_admitted, ← h]
  split
  · exact ResultAlike.next ⟨{ v with byte := s.memByte (bufferAddress buf s.work.idx) }, rfl, fun _ => ⟨h, rfl⟩⟩
  · exact .fault

theorem State.rxStore_alike (hp : s.phase = .i2RxStore) (c : Byte) (buf : Word) (h : s.work.idx = v.idx ∧ s.work.byte = v.byte) :
    ResultAlike i (s.rxStore c buf) ((s.withWork v).rxStore c buf) := by
  obtain ⟨hi, hb⟩ := h
  unfold State.rxStore
  rw [State.withWork_work, State.withWork_admitted, ← hi, ← hb]
  split
  · refine ResultAlike.next ?_
    split
    · exact State.goto_poll_alike (s := { s.memWrite _ _ with work.idx := s.work.idx + 1 })
        (v := { v with idx := s.work.idx + 1 }) rfl (by simp [hp]) ⟨rfl, fun _ => rfl⟩
    · exact State.goto_poll_alike (s := { s.memWrite _ _ with work.idx := s.work.idx + 1 })
        (v := { v with idx := s.work.idx + 1 }) rfl (by simp [hp]) rfl
  · exact .fault

end

/-! One SEQ step of each command after `DECODE`, phase by phase in the order of the meaning's arms. -/

section
variable {s : State} {v : Work}

theorem execInitClock_alike (hd : s.phase ≠ .decode) :
    ResultAlike .initClock (execInitClock s) (execInitClock (s.withWork v)) := by
  unfold execInitClock
  rw [State.withWork_phase]
  split <;> rename_i hp
  · exact absurd hp hd
  · exact .next (State.ckInit_alike hp v)
  · exact .fault

theorem execClockNow_alike (hd : s.phase ≠ .decode) :
    ResultAlike .clockNow (execClockNow s) (execClockNow (s.withWork v)) := by
  unfold execClockNow
  rw [State.withWork_phase]
  split <;> rename_i hp
  · exact absurd hp hd
  · exact .next (s.ckNow_alike v)
  · exact .fault

theorem execDelayUs_alike {n : Word} (hd : s.phase ≠ .decode) (h : ∀ p, s.phase = p → s.work.AgreesAt (.delayUs n) p v) :
    ResultAlike (.delayUs n) (execDelayUs n s) (execDelayUs n (s.withWork v)) := by
  unfold execDelayUs
  rw [State.withWork_phase]
  split <;> rename_i hp
  · exact absurd hp hd
  · exact .next (State.duEntry_alike (h _ hp))
  · exact .next (State.duWait_alike hp (h _ hp))
  · exact .next (State.duClear_alike (h _ hp))
  · exact .fault

theorem execDelayMs_alike {n : Word} (hd : s.phase ≠ .decode) (h : ∀ p, s.phase = p → s.work.AgreesAt (.delayMs n) p v) :
    ResultAlike (.delayMs n) (execDelayMs n s) (execDelayMs n (s.withWork v)) := by
  unfold execDelayMs
  rw [State.withWork_phase]
  split <;> rename_i hp
  · exact absurd hp hd
  · exact .next (State.dmArm_alike (h _ hp))
  · exact .next (State.dmWait_alike hp (h _ hp))
  · exact .fault

theorem execI2cWriteByte_alike {a : Addr7} {b : Byte} (hd : s.phase ≠ .decode)
    (h : ∀ p, s.phase = p → s.work.AgreesAt (.i2cWriteByte a b) p v) :
    ResultAlike (.i2cWriteByte a b) (execI2cWriteByte a b s) (execI2cWriteByte a b (s.withWork v)) := by
  have unread : (Instr.i2cWriteByte a b).needsByte .i2TxPoll = none := rfl
  unfold execI2cWriteByte
  rw [State.withWork_phase]
  split <;> rename_i hp
  · exact absurd hp hd
  · exact .next (State.waitStep_alike hp rfl (h _ hp) trivial)
  · exact .next (State.pwrite_goto_alike _ _ rfl (by simp [hp]) ⟨rfl, absurd unread⟩)
  · exact .next (State.waitStep_alike hp rfl (h _ hp) (absurd unread))
  · exact .next (State.pwrite_goto_alike _ _ rfl (by simp [hp]) rfl)
  · exact .next (State.waitStep_alike hp rfl (h _ hp) trivial)
  · exact .next (State.setStop_goto_alike hp v)
  · exact .next (State.waitStep_alike hp rfl (h _ hp) trivial)
  · exact .next (s.stopfClear_alike v)
  · exact .next (State.abortStop_alike (h _ hp))
  · exact .next (State.abortPoll_alike (h _ hp))
  · exact .next (State.abortClear_alike (h _ hp))
  · exact .fault

theorem execI2cWriteBytes_alike {a : Addr7} {c : Byte} {buf : Word} (hd : s.phase ≠ .decode)
    (h : ∀ p, s.phase = p → s.work.AgreesAt (.i2cWriteBytes a c buf) p v) :
    ResultAlike (.i2cWriteBytes a c buf) (execI2cWriteBytes a c buf s) (execI2cWriteBytes a c buf (s.withWork v)) := by
  have read : (Instr.i2cWriteBytes a c buf).needsByte .i2TxPoll ≠ none := Option.some_ne_none c
  unfold execI2cWriteBytes
  rw [State.withWork_phase]
  split <;> rename_i hp
  · exact absurd hp hd
  · exact .next (State.waitStep_alike hp rfl (h _ hp) trivial)
  · exact .next (State.startWrite_alike hp a c v)
  · exact .next (State.waitStep_alike hp rfl (h _ hp) ((h _ hp).2 read))
  · exact State.txFetch_alike buf (h _ hp)
  · obtain ⟨hi, hb⟩ := h _ hp read
    exact .next (State.txWrite_alike hp c hi hb)
  · exact .next (State.waitStep_alike hp rfl (h _ hp) trivial)
  · exact .next (State.setStop_goto_alike hp v)
  · exact .next (State.waitStep_alike hp rfl (h _ hp) trivial)
  · exact .next (s.stopfClear_alike v)
  · exact .next (State.abortStop_alike (h _ hp))
  · exact .next (State.abortPoll_alike (h _ hp))
  · exact .next (State.abortClear_alike (h _ hp))
  · exact .fault

theorem execI2cReadBytes_alike {a : Addr7} {r c : Byte} {buf : Word} (hd : s.phase ≠ .decode)
    (h : ∀ p, s.phase = p → s.work.AgreesAt (.i2cReadBytes a r c buf) p v) :
    ResultAlike (.i2cReadBytes a r c buf) (execI2cReadBytes a r c buf s) (execI2cReadBytes a r c buf (s.withWork v)) := by
  have unread : (Instr.i2cReadBytes a r c buf).needsByte .i2TxPoll = none := rfl
  have read : (Instr.i2cReadBytes a r c buf).needsByte .i2RxPoll ≠ none := Option.some_ne_none c
  unfold execI2cReadBytes
  rw [State.withWork_phase]
  split <;> rename_i hp
  · exact absurd hp hd
  · exact .next (State.waitStep_alike hp rfl (h _ hp) trivial)
  · exact .next (State.pwrite_goto_alike _ _ rfl (by simp [hp]) ⟨rfl, absurd unread⟩)
  · exact .next (State.waitStep_alike hp rfl (h _ hp) (absurd unread))
  · exact .next (State.pwrite_goto_alike _ _ rfl (by simp [hp]) rfl)
  · exact .next (State.waitStep_alike hp rfl (h _ hp) trivial)
  · exact .next (State.restart_alike hp a c v)
  · exact .next (State.waitStep_alike hp rfl (h _ hp) ((h _ hp).2 read))
  · exact .next (State.rxRead_alike (h _ hp))
  · exact State.rxStore_alike hp c buf (h _ hp)
  · exact .next (State.waitStep_alike hp rfl (h _ hp) trivial)
  · exact .next (s.stopfClear_alike v)
  · exact .next (State.abortStop_alike (h _ hp))
  · exact .next (State.abortPoll_alike (h _ hp))
  · exact .next (State.abortClear_alike (h _ hp))
  · exact .fault

theorem execMeasure_alike {timeout : Word} (hd : s.phase ≠ .decode)
    (h : ∀ p, s.phase = p → s.work.AgreesAt (.measure timeout) p v) :
    ResultAlike (.measure timeout) (execMeasure timeout s) (execMeasure timeout (s.withWork v)) := by
  unfold execMeasure
  rw [State.withWork_phase]
  split <;> rename_i hp
  · exact absurd hp hd
  · exact .next (s.trigHold_alike false v (.inl rfl))
  · exact .next (s.trigHold_alike true v (.inr rfl))
  · exact .next (s.trigEnd_alike v)
  · exact .next (State.sampleA_alike timeout (h _ hp))
  · exact .next (State.sampleB_alike timeout (h _ hp))
  · exact .next (State.rgSettle_alike (h _ hp))
  · exact .next (State.duEntry_alike (h _ hp))
  · exact .next (State.duWait_alike hp (h _ hp))
  · exact .next (State.duClear_alike (h _ hp))
  · exact .next (State.dmArm_alike (h _ hp))
  · exact .next (State.dmWait_alike hp (h _ hp))
  · exact .fault

theorem exec_alike {i : Instr} (hd : s.phase ≠ .decode) (h : s.work.AgreesAt i s.phase v) :
    ResultAlike i (exec i s) (exec i (s.withWork v)) := by
  have at_phase : ∀ p, s.phase = p → s.work.AgreesAt i p v := fun p hp => hp ▸ h
  cases i with
  | initClock => exact execInitClock_alike hd
  | clockNow => exact execClockNow_alike hd
  | delayUs n => exact execDelayUs_alike hd at_phase
  | delayMs n => exact execDelayMs_alike hd at_phase
  | i2cWriteByte addr data => exact execI2cWriteByte_alike hd at_phase
  | i2cWriteBytes addr count buf => exact execI2cWriteBytes_alike hd at_phase
  | i2cReadBytes addr reg count buf => exact execI2cReadBytes_alike hd at_phase
  | measure timeout => exact execMeasure_alike hd at_phase

end

/-! At `DECODE` a command enters its first phase (30_encoding R104). -/

/-- The state in which command `i` has entered its first phase. -/
def State.begin (i : Instr) (s : State) : State :=
  match i with
  | .initClock => s.goto .ckInit
  | .clockNow => s.goto .ckNow
  | .delayUs n => s.enterDelayUs n .done
  | .delayMs n => s.enterDelayMs n .done
  | .i2cWriteByte _ _ => s.goto .i2IdlePoll
  | .i2cWriteBytes _ _ _ => s.goto .i2IdlePoll
  | .i2cReadBytes _ _ _ _ => s.goto .i2IdlePoll
  | .measure _ => s.goto .rgTrig0

theorem exec_of_decode {s : State} (i : Instr) (h : s.phase = .decode) : exec i s = .next (s.begin i) := by
  cases i with
  | initClock => simp [exec, execInitClock, h, State.begin]
  | clockNow => simp [exec, execClockNow, h, State.begin]
  | delayUs n => simp [exec, execDelayUs, h, State.begin]
  | delayMs n => simp [exec, execDelayMs, h, State.begin]
  | i2cWriteByte addr data => simp [exec, execI2cWriteByte, h, State.begin]
  | i2cWriteBytes addr count buf => simp [exec, execI2cWriteBytes, h, State.begin]
  | i2cReadBytes addr reg count buf => simp [exec, execI2cReadBytes, h, State.begin]
  | measure timeout => simp [exec, execMeasure, h, State.begin]

/-- The first phase reads only what its entry has written, whatever command `C_OP` names. -/
theorem State.begin_alike {s : State} (i : Instr) (h : s.phase = .decode) (v : Work) :
    ∃ u, (s.withWork v).begin i = (s.begin i).withWork u ∧ ∀ j, (s.begin i).work.AgreesAt j (s.begin i).phase u := by
  have enter : ∀ p, Phase.isPoll p = false → (∀ j, s.work.AgreesAt j p v) →
      ∃ u, (s.withWork v).goto p = (s.goto p).withWork u ∧ ∀ j, (s.goto p).work.AgreesAt j (s.goto p).phase u :=
    fun p hp ha => ⟨v, by simp [State.goto_withWork, hp], by simpa [State.goto_work, hp] using ha⟩
  have wait : ∃ u, (s.withWork v).goto .i2IdlePoll = (s.goto .i2IdlePoll).withWork u ∧
      ∀ j, (s.goto .i2IdlePoll).work.AgreesAt j (s.goto .i2IdlePoll).phase u :=
    ⟨{ v with polls := 0 }, by simp [State.goto_withWork, h, Phase.isPoll],
      by simp [State.goto_work, h, Phase.isPoll, Work.AgreesAt]⟩
  cases i with
  | initClock => exact enter _ rfl fun _ => trivial
  | clockNow => exact enter _ rfl fun _ => trivial
  | delayUs n => exact ⟨{ v with drem := n, ret := .done }, rfl, fun _ => ⟨rfl, rfl, trivial⟩⟩
  | delayMs n => exact ⟨{ v with mrem := n, ret := .done }, rfl, fun _ => ⟨rfl, rfl, trivial⟩⟩
  | i2cWriteByte addr data => exact wait
  | i2cWriteBytes addr count buf => exact wait
  | i2cReadBytes addr reg count buf => exact wait
  | measure timeout => exact enter _ rfl fun _ => trivial

/-! The step and the run. -/

/-- `v` agrees with the working registers of `s` on what the command in `C_OP` still reads; between commands nothing is. -/
def State.AgreesWith (s : State) (v : Work) : Prop := ∀ i, s.cmd.instr = some i → s.work.AgreesAt i s.phase v

theorem State.agreesWith_between {s : State} (h : s.phase = .idle ∨ s.phase = .decode) (v : Work) : s.AgreesWith v := by
  intro i _
  rcases h with h | h <;> rw [h] <;> trivial

theorem State.SeqEffect.cmd_eq {s t : State} (h : s.SeqEffect t) : t.cmd = s.cmd := by
  cases h with
  | goesOn g => exact g.cmd
  | completes g c => exact g.cmd
  | reinit => rfl

theorem State.decodeStep_agrees {s t : State} (hp : s.phase = .decode) (h : s.decodeStep = .next t) (v : Work) :
    ∃ u, (s.withWork v).decodeStep = .next (t.withWork u) ∧ t.AgreesWith u := by
  unfold State.decodeStep at h ⊢
  rw [State.withWork_cmd]
  split at h
  · next i _ =>
    rw [exec_of_decode i hp] at h
    rw [exec_of_decode i ((s.withWork_phase v).trans hp)]
    cases h
    obtain ⟨u, hu, ha⟩ := State.begin_alike i hp v
    exact ⟨u, by rw [hu], fun j _ => ha j⟩
  · cases h
    exact ⟨v, rfl, State.agreesWith_between (.inl rfl) v⟩

theorem State.phaseStep_agrees {s t : State} {v : Work} (hp : s.phase ≠ .decode) (ha : s.AgreesWith v)
    (h : s.phaseStep = .next t) : ∃ u, (s.withWork v).phaseStep = .next (t.withWork u) ∧ t.AgreesWith u := by
  unfold State.phaseStep at h ⊢
  rw [State.withWork_cmd]
  split at h
  · next i hi =>
    obtain ⟨_, he, u, rfl, hu⟩ := exec_alike hp (ha i hi) t h
    refine ⟨u, he, fun j hj => ?_⟩
    rw [(exec_effect h).cmd_eq, hi] at hj
    exact Option.some.inj hj ▸ hu
  · cases h

theorem State.seqStep_agrees {s t : State} {v : Work} (ha : s.AgreesWith v) (h : s.seqStep = .next t) :
    ∃ u, (s.withWork v).seqStep = .next (t.withWork u) ∧ t.AgreesWith u := by
  have faulted : (s.withWork v).seqFaulted = s.seqFaulted := rfl
  rcases State.seqStep_cases h with ⟨hf, e⟩ | ⟨hf, hi, e⟩ | ⟨hf, hp, e⟩ | ⟨hf, hi, hp, e⟩
  · cases e
    exact ⟨v, by simp [State.seqStep, faulted, hf], ha⟩
  · cases e
    exact ⟨v, by simp [State.seqStep, faulted, hf, hi], ha⟩
  · obtain ⟨u, hu, hau⟩ := State.decodeStep_agrees hp e.symm v
    exact ⟨u, by simp [State.seqStep, faulted, hf, hp, hu], hau⟩
  · obtain ⟨u, hu, hau⟩ := State.phaseStep_agrees hp ha e.symm
    exact ⟨u, by simp [State.seqStep, faulted, hf, hu], hau⟩

/-- A move of another agent than SEQ reads no working register. -/
theorem State.act_withWork {m : Move} (hm : m ≠ .seq) (v : Work) (s : State) :
    (s.withWork v).act m = mapNext (State.withWork v) (s.act m) := by
  have host : ∀ act : State → Result, act (s.withWork v) = mapNext (State.withWork v) (act s) →
      (s.withWork v).hostStep act = mapNext (State.withWork v) (s.hostStep act) := by
    intro act e
    cases hf : s.hostFaulted
    · rw [State.hostStep_of_not_faulted hf, State.hostStep_of_not_faulted (s := s.withWork v) hf, e]
    · rw [State.hostStep_of_faulted hf, State.hostStep_of_faulted (s := s.withWork v) hf]; rfl
  cases m with
  | seq => exact absurd rfl hm
  | tick => cases h : s.clk.run <;> simp only [State.act, State.withWork_clk, h] <;> rfl
  | msExpire => cases h : s.mst.armed <;> simp only [State.act, State.withWork_mst, h] <;> rfl
  | hostIssue d =>
    refine host (fun t => .next (t.issue d)) (congrArg Host.Outcome.next ?_)
    unfold State.issue
    cases h : s.busy <;> rw [show (s.withWork v).busy = s.busy from rfl, h] <;> rfl
  | hostRead r =>
    refine host _ ?_
    have same : (s.withWork v).hostRegister r = s.hostRegister r := rfl
    unfold State.hostRead
    rw [same]
    split
    · rfl
    · cases s.hostRegister r <;> rfl
  | hostWrite r x => exact host _ (by unfold State.hostWrite; split <;> rfl)
  | hostReadCmd => exact host (fun _ => .refused .hostCommandPortWriteOnly) rfl
  | hostStore a x =>
    refine host _ ?_
    unfold State.hostStore
    cases h : s.busy <;> rw [show (s.withWork v).busy = s.busy from rfl, h] <;> rfl

/-- A move of another agent leaves `C_OP`, and leaves SEQ where it was or puts it at `DECODE`. -/
theorem State.act_keeps_agreesWith {m : Move} {s t : State} {v : Work} (hm : m ≠ .seq) (ha : s.AgreesWith v)
    (h : s.act m = .next t) : t.AgreesWith v := by
  rcases State.act_next h with ⟨e, _⟩ | ⟨_, _, rfl⟩ | ⟨_, _, rfl⟩ | ⟨d, _, _, rfl⟩ | ⟨r, _, _, e⟩ | ⟨a, x, _, _, e⟩ | ⟨_, rfl⟩
  · exact absurd e hm
  · exact ha
  · exact ha
  · rcases s.issue_cases d with ⟨_, e⟩ | ⟨_, e⟩ <;> rw [e]
    · exact State.agreesWith_between (.inr rfl) v
    · exact ha
  · obtain ⟨_, ⟨x, _, rfl⟩ | ⟨_, rfl⟩⟩ := State.hostRead_next e
    · exact ha
    · exact ha
  · obtain ⟨_, rfl⟩ := State.hostStore_next e
    exact ha
  · exact ha

theorem step_agrees {s t : State} {v : Work} (ha : s.AgreesWith v) (h : step s = .next t) :
    ∃ u, step (s.withWork v) = .next (t.withWork u) ∧ t.AgreesWith u := by
  have ha : s.dropMove.AgreesWith v := by simpa [State.AgreesWith] using ha
  have same : step (s.withWork v) = (s.dropMove.withWork v).act s.move := by
    rw [step, State.machineStep_eq, State.dropMove_withWork]; rfl
  rw [same]
  by_cases hm : s.move = .seq
  · rw [step_of_move_seq hm] at h
    rw [hm]
    exact State.seqStep_agrees ha h
  · have h : s.dropMove.act s.move = .next t := h
    exact ⟨v, by rw [State.act_withWork hm, h]; rfl, State.act_keeps_agreesWith hm ha h⟩

theorem core_run_succ {k : Nat} {s y : State} (h : step s = .next y) : Sys2Proof.core.run (k + 1) s = Sys2Proof.core.run k y := by
  have e : Sys2Proof.core.step s = .next y := h
  simp only [Host.Core.run, e]

/-- A run that goes through makes its first step and then the rest. -/
theorem core_run_succ_next {k : Nat} {s t : State} (h : Sys2Proof.core.run (k + 1) s = .next t) :
    ∃ y, step s = .next y ∧ Sys2Proof.core.run k y = .next t := by
  simp only [Host.Core.run] at h
  split at h
  · exact ⟨_, ‹_›, h⟩
  · cases h
  · cases h

theorem run_agrees {k : Nat} {s t : State} {v : Work} (ha : s.AgreesWith v) (h : Sys2Proof.core.run k s = .next t) :
    ∃ u, Sys2Proof.core.run k (s.withWork v) = .next (t.withWork u) := by
  induction k generalizing s v with
  | zero => cases h; exact ⟨v, rfl⟩
  | succ k ih =>
    obtain ⟨y, hy, hr⟩ := core_run_succ_next h
    obtain ⟨u, hu, hau⟩ := step_agrees ha hy
    rw [core_run_succ hu]
    exact ih hau hr

/-- Settles O56, by induction on the steps: the runs stay in agreement on what the command in progress still reads, and between
commands it reads nothing. -/
theorem noStaleWorkingRegister : Obligations.NoStaleWorkingRegister :=
  fun _ _ _ w hp h => run_agrees (State.agreesWith_between hp w) h

end Sys2Proof.Machine
end

/-! ### Every step keeps the invariant (O59) -/

section
namespace Sys2Proof.Machine

/-- The clauses of the invariant that speak of no phase. -/
structure State.Base (s : State) : Prop where
  cfg : s.cfg.wellFormed = true
  mem : Memory.wf s.mem = true
  cnt : s.clk.cnt.toNat < 2 ^ s.cfg.clkW
  status : Code.legal s.res.status = true
  ekind : s.work.ekind = 0 ∨ s.work.ekind = 4 ∨ s.work.ekind = 5
  sentinel : s.work.val = false → s.work.dur = 0
  range : (s.res.rngValid = false → s.res.rngDuration = 0) ∧ s.res.rngDistance = distance s.res.rngDuration
  cmd : s.cmd = Cmd.ofDesc s.cmd.desc

theorem State.Inv.base {s : State} (h : s.Inv) : s.Base := { h with }

/-- The outcome of READ_ECHO, which nothing but READ_ECHO's end changes (42_ranger R183). -/
def Work.outcome (w : Work) : Code × Bool × Word := (w.ekind, w.val, w.dur)

/-- What an inner step of SEQ leaves of the groups the invariant speaks of: all but `PHASE`, `UIF` and the working registers; of
these the outcome of READ_ECHO; and memory stays canonical. -/
structure State.Inner (s t : State) : Prop where
  cfg : t.cfg = s.cfg
  cmd : t.cmd = s.cmd
  res : t.res = s.res
  cnt : t.clk.cnt = s.clk.cnt
  mst : t.mst = s.mst
  faults : t.faults = s.faults
  outcome : t.work.outcome = s.work.outcome
  mem : Memory.wf s.mem = true → Memory.wf t.mem = true

/-- SEQ runs the legal command `i`: what the invariant says then, but for what it says of the phase. -/
structure State.Active (i : Instr) (s : State) : Prop where
  base : s.Base
  legal : decode s.cmd.desc = .ok i
  unfaulted : s.faults.clockReinit = false
  timer : s.mst.armed = true → s.phase = .dmWait ∧ s.mst.done = false

/-- The phases at which the invariant asks for no more than `State.Point`. -/
def Phase.isPlain (p : Phase) : Bool := !p.isPoll && !p.isAbort && p != .duWait && p != .duClear && p != .dmWait

theorem Config.pollLimit_pos {c : Config} (h : c.wellFormed = true) : 0 < c.pollLimit := by
  simp only [Config.wellFormed, Bool.and_eq_true, decide_eq_true_eq] at h
  exact h.1.1

/-! What leaves the clauses as they are. -/

section
variable {i : Instr} {s t u : State}

theorem State.Inner.base (h : s.Inner t) (b : s.Base) : t.Base := by
  obtain ⟨hcfg, hcmd, hres, hcnt, -, -, hout, hmem⟩ := h
  obtain ⟨hk, hv, hd⟩ : t.work.ekind = s.work.ekind ∧ t.work.val = s.work.val ∧ t.work.dur = s.work.dur := by
    simpa [Work.outcome] using hout
  constructor
  · rw [hcfg]; exact b.cfg
  · exact hmem b.mem
  · rw [hcnt, hcfg]; exact b.cnt
  · rw [hres]; exact b.status
  · rw [hk]; exact b.ekind
  · rw [hv, hd]; exact b.sentinel
  · rw [hres]; exact b.range
  · rw [hcmd]; exact b.cmd

theorem State.Inner.refl (s : State) : s.Inner s := ⟨rfl, rfl, rfl, rfl, rfl, rfl, rfl, id⟩

/-- `PHASE` and the working registers are free but for the outcome. -/
theorem State.Inner.moved (h : s.Inner u) (x : Work) (p : Phase) (hx : x.outcome = u.work.outcome) :
    s.Inner { u with work := x, phase := p } :=
  { h with outcome := hx.trans h.outcome }

theorem State.goto_outcome (p : Phase) (s : State) : (s.goto p).work.outcome = s.work.outcome := by
  rw [State.goto_work]; split <;> rfl

theorem State.Inner.goto (h : s.Inner u) (p : Phase) : s.Inner (u.goto p) :=
  ⟨by simpa using h.cfg, by simpa using h.cmd, by simpa using h.res, by simpa using h.cnt, by simpa using h.mst,
    by simpa using h.faults, (u.goto_outcome p).trans h.outcome, by simpa using h.mem⟩

theorem State.emit_inner (e : Event) (s : State) : s.Inner (s.emit e) := ⟨rfl, rfl, rfl, rfl, rfl, rfl, rfl, id⟩

theorem State.pread_inner (r : PReg) (s : State) : s.Inner (s.pread r) := by constructor <;> simp

theorem State.polled_inner (s : State) : s.Inner s.polled := (s.pread_inner .status).moved _ _ (by simp [Work.outcome])

theorem State.pwrite_inner (r : PReg) (v : Word) (s : State) : s.Inner (s.pwrite r v) := ⟨rfl, rfl, rfl, rfl, rfl, rfl, rfl, id⟩

theorem State.setStop_inner (s : State) : s.Inner s.setStop := ⟨rfl, rfl, rfl, rfl, rfl, rfl, rfl, id⟩

theorem State.uifClear_inner (s : State) : s.Inner s.uifClear := ⟨rfl, rfl, rfl, rfl, rfl, rfl, rfl, id⟩

theorem State.drive_inner (l : Bool) (s : State) : s.Inner (s.drive l) := ⟨rfl, rfl, rfl, rfl, rfl, rfl, rfl, id⟩

theorem State.memRead_inner (a : Word) (s : State) : s.Inner (s.memRead a) := ⟨rfl, rfl, rfl, rfl, rfl, rfl, rfl, id⟩

theorem State.memWrite_inner (a : Word) (v : Byte) (s : State) : s.Inner (s.memWrite a v) :=
  ⟨rfl, rfl, rfl, rfl, rfl, rfl, rfl, fun h => Memory.wf_write h a v⟩

theorem State.echoSample_inner (s : State) : s.Inner s.echoSample := by constructor <;> simp

theorem State.Inv.active (h : s.Inv) (hd : decode s.cmd.desc = .ok i) (hf : s.faults.clockReinit = false) : s.Active i :=
  ⟨h.base, hd, hf, h.armed⟩

/-- Outside `DM_WAIT` the timer is not armed. -/
theorem State.Active.disarmed (r : s.Active i) (hs : s.phase ≠ .dmWait) : s.mst.armed = false :=
  Bool.eq_false_iff.mpr fun h => hs (r.timer h).1

theorem State.Active.next (r : s.Active i) (hs : s.phase ≠ .dmWait) (h : s.Inner t) : t.Active i where
  base := h.base r.base
  legal := by rw [h.cmd]; exact r.legal
  unfaulted := by rw [h.faults]; exact r.unfaulted
  timer := fun ha => by rw [h.mst, r.disarmed hs] at ha; cases ha

/-! How the invariant is told of the state a step ends in. -/

theorem State.Active.inv (r : t.Active i) (pt : t.Point i) (polls : t.phase.isPoll = true → t.work.polls < t.cfg.pollLimit)
    (abort : t.phase.isAbort = true → t.cfg.mode = .bounded ∧ (t.work.err = 2 ∨ t.work.err = 3))
    (waits : (t.phase = .duWait ∨ t.phase = .duClear → t.work.drem ≠ 0) ∧ (t.phase = .dmWait → t.work.mrem ≠ 0)) : t.Inv :=
  { r.base with
    armed := r.timer
    polls := polls
    point := fun _ _ => ⟨i, r.legal, pt⟩
    abort := abort
    reinit := fun h => by rw [r.unfaulted] at h; cases h
    waits := waits }

theorem State.Active.inv_of_plain (r : t.Active i) (pt : t.Point i) (hp : t.phase.isPlain = true) : t.Inv := by
  simp only [Phase.isPlain, Bool.and_eq_true, Bool.not_eq_true', bne_iff_ne] at hp
  obtain ⟨⟨⟨⟨poll, abort⟩, wait⟩, clear⟩, ms⟩ := hp
  refine r.inv pt (fun h => ?_) (fun h => ?_) ⟨fun h => ?_, fun h => absurd h ms⟩
  · rw [poll] at h; cases h
  · rw [abort] at h; cases h
  · exact h.elim (absurd · wait) (absurd · clear)

/-- A completion leaves SEQ idle, where the invariant asks for a disarmed timer and no `CLOCK_REINIT`. -/
theorem State.Base.complete_inv {c : Code} (b : u.Base) (hc : Code.legal c = true) (ht : u.mst.armed = false)
    (hf : u.faults.clockReinit = false) : (u.complete c).Inv :=
  { b with
    status := hc
    armed := fun h => by rw [State.complete_mst, ht] at h; cases h
    polls := nofun
    point := fun h => absurd rfl h
    abort := nofun
    reinit := fun h => by rw [State.complete_faults, hf] at h; cases h
    waits := ⟨fun h => by cases h <;> contradiction, nofun⟩ }

theorem State.Active.complete_inv {c : Code} (r : s.Active i) (hs : s.phase ≠ .dmWait) (h : s.Inner u)
    (hc : Code.legal c = true) : (u.complete c).Inv :=
  (h.base r.base).complete_inv hc (by rw [h.mst, r.disarmed hs]) (by rw [h.faults, r.unfaulted])

end

/-! The points of the I2C commands. -/

section
variable {i : Instr} {s t u : State} {p : Phase}

theorem Phase.eq_of_isDelayUs (h : p.isDelayUs = true) : p = .duEntry ∨ p = .duWait ∨ p = .duClear := by
  simpa [Phase.isDelayUs, or_assoc] using h

theorem Phase.eq_of_isDelayMs (h : p.isDelayMs = true) : p = .dmArm ∨ p = .dmWait := by simpa [Phase.isDelayMs] using h

theorem Phase.isDelayMs_of_isDelayUs (h : p.isDelayUs = true) : p.isDelayMs = false := by
  rcases Phase.eq_of_isDelayUs h with rfl | rfl | rfl <;> rfl

theorem Phase.isDelayUs_of_isDelayMs (h : p.isDelayMs = true) : p.isDelayUs = false := by
  rcases Phase.eq_of_isDelayMs h with rfl | rfl <;> rfl

/-- The only commands with a delay are the two delays and `MEASURE`. -/
theorem hasPhase_delayUs (hp : i.hasPhase p = true) (hd : p.isDelayUs = true) :
    (∃ n, i = .delayUs n) ∨ (∃ n, i = .measure n) := by
  cases i with
  | delayUs n => exact .inl ⟨n, rfl⟩
  | measure n => exact .inr ⟨n, rfl⟩
  | _ => rcases Phase.eq_of_isDelayUs hd with rfl | rfl | rfl <;> cases hp

theorem hasPhase_delayMs (hp : i.hasPhase p = true) (hd : p.isDelayMs = true) :
    (∃ n, i = .delayMs n) ∨ (∃ n, i = .measure n) := by
  cases i with
  | delayMs n => exact .inl ⟨n, rfl⟩
  | measure n => exact .inr ⟨n, rfl⟩
  | _ => rcases Phase.eq_of_isDelayMs hd with rfl | rfl <;> cases hp

theorem isI2c_hasPhase_not_delay (hi : i.isI2c = true) (hp : i.hasPhase p = true) :
    p.isDelayUs = false ∧ p.isDelayMs = false := by
  constructor <;> refine Bool.eq_false_iff.mpr fun hd => ?_
  · rcases hasPhase_delayUs hp hd with ⟨n, rfl⟩ | ⟨n, rfl⟩ <;> cases hi
  · rcases hasPhase_delayMs hp hd with ⟨n, rfl⟩ | ⟨n, rfl⟩ <;> cases hi

theorem hasPhase_of_isI2cCommon (hi : i.isI2c = true) (hp : p.isI2cCommon = true) : i.hasPhase p = true := by
  cases i with
  | i2cWriteByte _ _ => simp [Instr.hasPhase, hp]
  | i2cWriteBytes _ _ _ => simp [Instr.hasPhase, hp]
  | i2cReadBytes _ _ _ _ => simp [Instr.hasPhase, hp]
  | _ => cases hi

theorem needsByte_of_isAbort (i : Instr) (hp : p.isAbort = true) : i.needsByte p = none := by
  have hp : p = .i2AbStop ∨ p = .i2AbPoll ∨ p = .i2AbClear := by simpa [Phase.isAbort, or_assoc] using hp
  rcases hp with rfl | rfl | rfl <;> cases i <;> rfl

theorem State.Point.of_isI2c (hi : i.isI2c = true) (hp : i.hasPhase s.phase = true)
    (byte : ∀ c, i.needsByte s.phase = some c → s.work.idx.toNat < c.toNat) : s.Point i := by
  obtain ⟨us, ms⟩ := isI2c_hasPhase_not_delay hi hp
  have not_measure : ∀ t, i ≠ .measure t := by rintro t rfl; cases hi
  refine ⟨hp, ?_, byte, fun t e => absurd e (not_measure t), fun t e => absurd e (not_measure t)⟩
  cases i with
  | measure t => exact absurd rfl (not_measure t)
  | _ => simp [Instr.hasRet, us, ms]

theorem State.Active.not_dmWait_of_isI2c (hi : i.isI2c = true) (pt : s.Point i) : s.phase ≠ .dmWait := by
  intro h
  have ms := (isI2c_hasPhase_not_delay hi pt.phase).2
  rw [h] at ms
  cases ms

/-- An inner step of an I2C command, told by the phase it ends in. -/
theorem State.Active.i2c_inv (r : s.Active i) (pt : s.Point i) (hi : i.isI2c = true) (h : s.Inner t)
    (hp : i.hasPhase t.phase = true) (byte : ∀ c, i.needsByte t.phase = some c → t.work.idx.toNat < c.toNat)
    (polls : t.phase.isPoll = true → t.work.polls < t.cfg.pollLimit)
    (abort : t.phase.isAbort = true → t.cfg.mode = .bounded ∧ (t.work.err = 2 ∨ t.work.err = 3)) : t.Inv := by
  obtain ⟨us, ms⟩ := isI2c_hasPhase_not_delay hi hp
  refine (r.next (State.Active.not_dmWait_of_isI2c hi pt) h).inv (.of_isI2c hi hp byte) polls abort ⟨fun e => ?_, fun e => ?_⟩
  · rcases e with e | e <;> rw [e] at us <;> cases us
  · rw [e] at ms; cases ms

/-- The same for a step that enters another phase, which is none of the abort. -/
theorem State.Active.i2c_goto_inv (r : s.Active i) (pt : s.Point i) (hi : i.isI2c = true) (h : s.Inner u) (hs : p ≠ u.phase)
    (hp : i.hasPhase p = true) (ha : p.isAbort = false)
    (byte : ∀ c, i.needsByte p = some c → u.work.idx.toNat < c.toNat) : (u.goto p).Inv := by
  have idx : (u.goto p).work.idx = u.work.idx := by rw [State.goto_work]; split <;> rfl
  refine r.i2c_inv pt hi (h.goto p) (by simpa using hp) (by simpa [idx] using byte) (fun e => ?_) (fun e => ?_)
  · have cleared : (u.goto p).work.polls = 0 := by
      rw [State.goto_phase] at e
      simp [State.goto_work, e, hs]
    rw [cleared]
    exact Config.pollLimit_pos ((h.goto p).base r.base).cfg
  · rw [State.goto_phase, ha] at e; cases e

/-- What follows a wait is a point of the command that polls nothing, for the same byte. -/
theorem waitNext_spec {w : Wait} {n : Phase} (h : i.waitNext w = some n) :
    i.isI2c = true ∧ i.hasPhase n = true ∧ n.isPoll = false ∧ n.isAbort = false ∧ i.needsByte n = i.needsByte w.phase := by
  unfold Instr.waitNext at h
  split at h <;> cases h <;> exact ⟨rfl, rfl, rfl, rfl, rfl⟩

theorem Wait.phase_isPoll (w : Wait) : w.phase.isPoll = true := by cases w <;> rfl

theorem Wait.phase_isAbort (w : Wait) : w.phase.isAbort = false := by cases w <;> rfl

theorem Wait.err_of_aborts {w : Wait} (h : w.aborts = true) : w.err.code = 2 ∨ w.err.code = 3 := by
  cases w with
  | idle => cases h
  | tx => exact .inl rfl
  | rx => exact .inl rfl
  | tc => exact .inr rfl
  | stopf => exact .inr rfl

theorem Status.code_legal (e : Status) : Code.legal e.code = true := by cases e <;> rfl

/-- A failed wait of `BOUNDED` mode aborts or completes (41_i2c R140). -/
theorem State.Active.waitFail_inv (r : s.Active i) (pt : s.Point i) (hi : i.isI2c = true) (hm : s.cfg.mode = .bounded)
    (h : s.Inner u) (w : Wait) : (u.waitFail w).Inv := by
  unfold State.waitFail
  split
  · next ha =>
    refine r.i2c_inv pt hi (h.moved _ _ rfl) (hasPhase_of_isI2cCommon hi rfl) (fun c hc => ?_) nofun
      (fun _ => ⟨(congrArg Config.mode h.cfg).trans hm, w.err_of_aborts ha⟩)
    rw [show (u.abort w.err.code).phase = .i2AbStop from rfl, needsByte_of_isAbort i rfl] at hc
    cases hc
  · exact r.complete_inv (State.Active.not_dmWait_of_isI2c hi pt) h w.err.code_legal

theorem State.Active.waitStep_inv {w : Wait} {n : Phase} (r : s.Active i) (h : s.Inv) (pt : s.Point i) (hp : s.phase = w.phase)
    (hw : i.waitNext w = some n) : (s.waitStep w n).Inv := by
  obtain ⟨hi, hn, poll, abort, byte⟩ := waitNext_spec hw
  -- the step stays at the poll with polls left
  have stays : ∀ {t : State}, s.Inner t → t.phase = s.phase → t.work.idx = s.work.idx →
      t.work.polls < t.cfg.pollLimit → t.Inv := by
    intro t ht e hidx hpolls
    refine r.i2c_inv pt hi ht (by rw [e]; exact pt.phase) (by rw [e, hidx]; exact pt.byte) (fun _ => hpolls) (fun ha => ?_)
    rw [e, hp, w.phase_isAbort] at ha; cases ha
  have left : s.work.polls < s.cfg.pollLimit := h.polls (by rw [hp, w.phase_isPoll])
  rcases State.waitStep_cases (n := n) hp with ⟨_, e⟩ | ⟨_, _, e⟩ | ⟨_, hm, _, e⟩ | ⟨_, _, hne, e⟩ <;> rw [e]
  · refine r.i2c_goto_inv pt hi (s.pread_inner _) ?_ hn abort (by simpa [byte, ← hp] using pt.byte)
    rintro rfl
    rw [State.pread_phase, hp, w.phase_isPoll] at poll; cases poll
  · exact stays (s.pread_inner _) (by simp) (by simp) (by simpa using left)
  · exact r.waitFail_inv pt hi hm s.polled_inner w
  · refine stays s.polled_inner (by simp) (by simp) ?_
    rw [s.polled_inner.cfg, State.polled_work]
    exact Nat.lt_of_le_of_ne left hne

/-! The abort (41_i2c R142). -/

theorem State.Active.abort_phase_inv (r : s.Active i) (h : s.Inv) (pt : s.Point i) (hi : i.isI2c = true)
    (hs : s.phase.isAbort = true) (ht : s.Inner t) (he : t.work.err = s.work.err) (ha : t.phase.isAbort = true)
    (polls : t.phase.isPoll = true → t.work.polls < t.cfg.pollLimit) : t.Inv := by
  refine r.i2c_inv pt hi ht (hasPhase_of_isI2cCommon hi (by simp [Phase.isI2cCommon, ha])) (fun c hc => ?_) polls (fun _ => ?_)
  · rw [needsByte_of_isAbort i ha] at hc; cases hc
  · rw [ht.cfg, he]; exact h.abort hs

theorem State.Active.abortStop_inv (r : s.Active i) (h : s.Inv) (pt : s.Point i) (hi : i.isI2c = true)
    (hp : s.phase = .i2AbStop) : s.abortStop.Inv :=
  r.abort_phase_inv h pt hi (by rw [hp]; rfl) (s.setStop_inner.moved _ _ rfl) rfl rfl
    (fun _ => Config.pollLimit_pos h.cfg)

theorem State.Active.abortPoll_inv (r : s.Active i) (h : s.Inv) (pt : s.Point i) (hi : i.isI2c = true)
    (hp : s.phase = .i2AbPoll) : s.abortPoll.Inv := by
  have left : s.work.polls < s.cfg.pollLimit := h.polls (by rw [hp]; rfl)
  have hs : s.phase.isAbort = true := by rw [hp]; rfl
  rcases s.abortPoll_cases with ⟨_, e⟩ | ⟨_, _, e⟩ | ⟨_, hne, e⟩ <;> rw [e]
  · exact r.abort_phase_inv h pt hi hs ((s.pread_inner _).moved _ _ rfl) (by simp) rfl nofun
  · exact r.abort_phase_inv h pt hi hs (s.polled_inner.moved _ _ rfl) (by simp) rfl nofun
  · refine r.abort_phase_inv h pt hi hs (s.polled_inner.moved _ _ rfl) (by simp) rfl (fun _ => ?_)
    show s.polled.work.polls < s.polled.cfg.pollLimit
    rw [s.polled_inner.cfg, State.polled_work]
    exact Nat.lt_of_le_of_ne left hne

theorem State.Active.abortClear_inv (r : s.Active i) (h : s.Inv) (hp : s.phase = .i2AbClear) : s.abortClear.Inv := by
  refine r.complete_inv (by simp [hp]) (s.pwrite_inner _ _) ?_
  obtain ⟨_, e | e⟩ := h.abort (by rw [hp]; rfl) <;> rw [e] <;> rfl

theorem State.Active.stopfClear_inv (r : s.Active i) (hp : s.phase = .i2StopfClear) : s.stopfClear.Inv :=
  r.complete_inv (by simp [hp]) (s.pwrite_inner _ _) rfl

/-! The accesses between the waits (41_i2c R145, R147, R150). -/

/-- `PWrite` and the next wait, for a command that needs no byte there. -/
theorem State.Active.pwrite_goto_inv {x : PReg} {v : Word} (r : s.Active i) (pt : s.Point i) (hi : i.isI2c = true)
    (hs : p ≠ s.phase) (hp : i.hasPhase p = true) (ha : p.isAbort = false) (byte : i.needsByte p = none) :
    ((s.pwrite x v).goto p).Inv :=
  r.i2c_goto_inv pt hi (s.pwrite_inner _ _) hs hp ha (fun c hc => by rw [byte] at hc; cases hc)

theorem State.Active.setStop_goto_inv (r : s.Active i) (pt : s.Point i) (hi : i.isI2c = true) (hp : s.phase = .i2Stop)
    (byte : i.needsByte .i2StopfPoll = none) : (s.setStop.goto .i2StopfPoll).Inv :=
  r.i2c_goto_inv pt hi s.setStop_inner (by simp [hp]) (hasPhase_of_isI2cCommon hi rfl) rfl
    (fun c hc => by rw [byte] at hc; cases hc)

/-- The first byte of a transfer that has one. -/
theorem zero_lt_count {c : Byte} (h : c ≠ 0) : (0 : BitVec 9).toNat < c.toNat := by
  have : c.toNat ≠ 0 := fun e => h (BitVec.eq_of_toNat_eq e)
  simpa using Nat.pos_of_ne_zero this

theorem toNat_lt_of_lt_setWidth {x : BitVec 9} {c : Byte} (h : x < c.setWidth 9) : x.toNat < c.toNat := by
  bv_omega

end

section
variable {s t : State} {a : Addr7} {b c : Byte} {buf : Word}

theorem State.Active.startWrite_inv (r : s.Active (.i2cWriteBytes a c buf)) (pt : s.Point (.i2cWriteBytes a c buf))
    (hp : s.phase = .i2Start) : (s.startWrite a c).Inv := by
  have inner := (s.pwrite_inner .ctrl (ctrlWord a c false false)).moved { s.work with idx := 0 } s.phase rfl
  unfold State.startWrite
  split
  · exact r.i2c_goto_inv pt rfl inner (by simp [hp]) rfl rfl nofun
  · next hc =>
    refine r.i2c_goto_inv pt rfl inner (by simp [hp]) rfl rfl fun x hx => ?_
    cases hx
    exact zero_lt_count hc

theorem State.Active.txFetch_inv (r : s.Active (.i2cWriteBytes a c buf)) (pt : s.Point (.i2cWriteBytes a c buf))
    (hp : s.phase = .i2TxFetch) (h : s.txFetch buf = .next t) : t.Inv := by
  obtain ⟨_, rfl⟩ := State.txFetch_next h
  refine r.i2c_inv pt rfl ((s.memRead_inner _).moved _ _ rfl) rfl (fun x hx => ?_) nofun nofun
  exact pt.byte x (by rw [hp]; exact hx)

theorem State.Active.txWrite_inv (r : s.Active (.i2cWriteBytes a c buf)) (pt : s.Point (.i2cWriteBytes a c buf))
    (hp : s.phase = .i2TxWrite) : (s.txWrite c).Inv := by
  have inner := (s.pwrite_inner .txdr (txdrWord s.work.byte)).moved { s.work with idx := s.work.idx + 1 } s.phase rfl
  unfold State.txWrite
  split
  · next more =>
    refine r.i2c_goto_inv pt rfl inner (by simp [hp]) rfl rfl fun x hx => ?_
    cases hx
    exact toNat_lt_of_lt_setWidth more
  · exact r.i2c_goto_inv pt rfl inner (by simp [hp]) rfl rfl nofun

theorem State.Active.restart_inv (r : s.Active (.i2cReadBytes a b c buf)) (pt : s.Point (.i2cReadBytes a b c buf))
    (hp : s.phase = .i2Restart) : (s.restart a c).Inv := by
  have inner := (s.pwrite_inner .ctrl (ctrlWord a c true true)).moved { s.work with idx := 0 } s.phase rfl
  unfold State.restart
  split
  · exact r.i2c_goto_inv pt rfl inner (by simp [hp]) rfl rfl nofun
  · next hc =>
    refine r.i2c_goto_inv pt rfl inner (by simp [hp]) rfl rfl fun x hx => ?_
    cases hx
    exact zero_lt_count hc

theorem State.Active.rxRead_inv (r : s.Active (.i2cReadBytes a b c buf)) (pt : s.Point (.i2cReadBytes a b c buf))
    (hp : s.phase = .i2RxRead) : s.rxRead.Inv := by
  refine r.i2c_inv pt rfl ((s.pread_inner .rxdr).moved _ _ rfl) rfl (fun x hx => ?_) nofun nofun
  have idx := pt.byte x (by rw [hp]; exact hx)
  simpa [State.rxRead] using idx

theorem State.Active.rxStore_inv (r : s.Active (.i2cReadBytes a b c buf)) (pt : s.Point (.i2cReadBytes a b c buf))
    (hp : s.phase = .i2RxStore) (h : s.rxStore c buf = .next t) : t.Inv := by
  obtain ⟨_, rfl⟩ := State.rxStore_next h
  have inner := (s.memWrite_inner (bufferAddress buf s.work.idx) s.work.byte).moved
    { s.work with idx := s.work.idx + 1 } s.phase rfl
  split
  · next more =>
    refine r.i2c_goto_inv pt rfl inner (by simp [hp]) rfl rfl fun x hx => ?_
    cases hx
    exact toNat_lt_of_lt_setWidth more
  · exact r.i2c_goto_inv pt rfl inner (by simp [hp]) rfl rfl nofun

theorem execI2cWriteByte_inv (r : s.Active (.i2cWriteByte a b)) (h : s.Inv) (pt : s.Point (.i2cWriteByte a b))
    (hd : s.phase ≠ .decode) (e : execI2cWriteByte a b s = .next t) : t.Inv := by
  unfold execI2cWriteByte at e
  split at e <;> rename_i hp <;> cases e
  · exact absurd hp hd
  · exact r.waitStep_inv h pt hp rfl
  · exact r.pwrite_goto_inv pt rfl (by simp [hp]) rfl rfl rfl
  · exact r.waitStep_inv h pt hp rfl
  · exact r.pwrite_goto_inv pt rfl (by simp [hp]) rfl rfl rfl
  · exact r.waitStep_inv h pt hp rfl
  · exact r.setStop_goto_inv pt rfl hp rfl
  · exact r.waitStep_inv h pt hp rfl
  · exact r.stopfClear_inv hp
  · exact r.abortStop_inv h pt rfl hp
  · exact r.abortPoll_inv h pt rfl hp
  · exact r.abortClear_inv h hp

theorem execI2cWriteBytes_inv (r : s.Active (.i2cWriteBytes a c buf)) (h : s.Inv) (pt : s.Point (.i2cWriteBytes a c buf))
    (hd : s.phase ≠ .decode) (e : execI2cWriteBytes a c buf s = .next t) : t.Inv := by
  unfold execI2cWriteBytes at e
  split at e <;> rename_i hp
  -- the fetch is the only phase that may stop on an access (20_memory R69)
  case h_5 => exact r.txFetch_inv pt hp e
  all_goals cases e
  · exact absurd hp hd
  · exact r.waitStep_inv h pt hp rfl
  · exact r.startWrite_inv pt hp
  · exact r.waitStep_inv h pt hp rfl
  · exact r.txWrite_inv pt hp
  · exact r.waitStep_inv h pt hp rfl
  · exact r.setStop_goto_inv pt rfl hp rfl
  · exact r.waitStep_inv h pt hp rfl
  · exact r.stopfClear_inv hp
  · exact r.abortStop_inv h pt rfl hp
  · exact r.abortPoll_inv h pt rfl hp
  · exact r.abortClear_inv h hp

theorem execI2cReadBytes_inv (r : s.Active (.i2cReadBytes a b c buf)) (h : s.Inv) (pt : s.Point (.i2cReadBytes a b c buf))
    (hd : s.phase ≠ .decode) (e : execI2cReadBytes a b c buf s = .next t) : t.Inv := by
  unfold execI2cReadBytes at e
  split at e <;> rename_i hp
  -- the store is the only phase that may stop on an access (20_memory R69)
  case h_10 => exact r.rxStore_inv pt hp e
  all_goals cases e
  · exact absurd hp hd
  · exact r.waitStep_inv h pt hp rfl
  · exact r.pwrite_goto_inv pt rfl (by simp [hp]) rfl rfl rfl
  · exact r.waitStep_inv h pt hp rfl
  · exact r.pwrite_goto_inv pt rfl (by simp [hp]) rfl rfl rfl
  · exact r.waitStep_inv h pt hp rfl
  · exact r.restart_inv pt hp
  · exact r.waitStep_inv h pt hp rfl
  · exact r.rxRead_inv pt hp
  · exact r.waitStep_inv h pt hp rfl
  · exact r.stopfClear_inv hp
  · exact r.abortStop_inv h pt rfl hp
  · exact r.abortPoll_inv h pt rfl hp
  · exact r.abortClear_inv h hp

end

/-! The delays (40_clock R123, R125). -/

section
variable {i : Instr} {s t u : State} {p q : Phase}

theorem needsByte_of_delay (i : Instr) (h : p.isDelayUs = true ∨ p.isDelayMs = true) : i.needsByte p = none := by
  rcases h with h | h
  · rcases Phase.eq_of_isDelayUs h with rfl | rfl | rfl <;> cases i <;> rfl
  · rcases Phase.eq_of_isDelayMs h with rfl | rfl <;> cases i <;> rfl

theorem hasRet_congr (i : Instr) (x : Ret) (us : p.isDelayUs = q.isDelayUs) (ms : p.isDelayMs = q.isDelayMs) :
    i.hasRet p x = i.hasRet q x := by
  cases i <;> simp [Instr.hasRet, us, ms]

theorem State.inEcho_of_isDelayUs (h : s.phase.isDelayUs = true) :
    s.inEcho = (s.work.ret == .back .rgASample || s.work.ret == .back .rgBSample) := by
  rcases Phase.eq_of_isDelayUs h with e | e | e <;> simp [State.inEcho, e, Phase.isDelayUs]

theorem State.inEcho_of_isDelayMs (h : s.phase.isDelayMs = true) : s.inEcho = false := by
  rcases Phase.eq_of_isDelayMs h with e | e <;> simp [State.inEcho, e, Phase.isDelayUs]

theorem State.inSettle_of_isDelayUs (h : s.phase.isDelayUs = true) : s.inSettle = false := by
  rcases Phase.eq_of_isDelayUs h with e | e | e <;> simp [State.inSettle, e, Phase.isDelayMs]

theorem State.inSettle_of_isDelayMs (h : s.phase.isDelayMs = true) : s.inSettle = true := by simp [State.inSettle, h]

/-- The phases of one `DELAY_US` are points of the same command. -/
theorem State.Point.of_delayUs (pt : s.Point i) (hs : s.phase.isDelayUs = true) (ht : t.phase.isDelayUs = true)
    (ret : t.work.ret = s.work.ret) (ecnt : t.work.ecnt = s.work.ecnt) : t.Point i where
  phase := by rcases hasPhase_delayUs pt.phase hs with ⟨n, rfl⟩ | ⟨n, rfl⟩ <;> simp [Instr.hasPhase, ht]
  ret := by
    rw [ret, hasRet_congr i _ (ht.trans hs.symm)
      ((Phase.isDelayMs_of_isDelayUs ht).trans (Phase.isDelayMs_of_isDelayUs hs).symm)]
    exact pt.ret
  byte := fun c hc => by rw [needsByte_of_delay i (.inl ht)] at hc; cases hc
  echo := fun n e h => by
    rw [State.inEcho_of_isDelayUs ht, ret, ← State.inEcho_of_isDelayUs hs] at h
    rw [ecnt]; exact pt.echo n e h
  settle := fun n e h => by rw [State.inSettle_of_isDelayUs ht] at h; cases h

/-- The phases of one `DELAY_MS` are points of the same command. -/
theorem State.Point.of_delayMs (pt : s.Point i) (hs : s.phase.isDelayMs = true) (ht : t.phase.isDelayMs = true)
    (ret : t.work.ret = s.work.ret) (dur : t.work.dur = s.work.dur) : t.Point i where
  phase := by rcases hasPhase_delayMs pt.phase hs with ⟨n, rfl⟩ | ⟨n, rfl⟩ <;> simp [Instr.hasPhase, ht]
  ret := by
    rw [ret, hasRet_congr i _ ((Phase.isDelayUs_of_isDelayMs ht).trans (Phase.isDelayUs_of_isDelayMs hs).symm)
      (ht.trans hs.symm)]
    exact pt.ret
  byte := fun c hc => by rw [needsByte_of_delay i (.inr ht)] at hc; cases hc
  echo := fun n e h => by rw [State.inEcho_of_isDelayMs ht] at h; cases h
  settle := fun n e _ => by rw [dur]; exact pt.settle n e (State.inSettle_of_isDelayMs hs)

theorem State.Point.of_measure {n : Word} (phase : Instr.hasPhase (.measure n) s.phase = true)
    (ret : Instr.hasRet (.measure n) s.phase s.work.ret = true) (echo : s.inEcho = true → s.work.ecnt.toNat ≤ n.toNat)
    (settle : s.inSettle = true → s.work.dur.toNat ≤ n.toNat) : s.Point (.measure n) :=
  ⟨phase, ret, nofun, fun _ e => Instr.measure.inj e ▸ echo, fun _ e => Instr.measure.inj e ▸ settle⟩

theorem hasRet_back_of_delayUs (hd : p.isDelayUs = true) (h : i.hasRet p (.back q) = true) :
    (∃ n, i = .measure n) ∧ (q = .rgTrig1 ∨ q = .rgTrig2 ∨ q = .rgASample ∨ q = .rgBSample) := by
  cases i with
  | measure n => exact ⟨⟨n, rfl⟩, by simpa [Instr.hasRet, hd, Phase.isDelayMs_of_isDelayUs hd, or_assoc] using h⟩
  | _ => simp [Instr.hasRet, hd] at h

theorem hasRet_back_of_delayMs (hd : p.isDelayMs = true) (h : i.hasRet p (.back q) = true) :
    (∃ n, i = .measure n) ∧ q = .rgSettle := by
  cases i with
  | measure n => exact ⟨⟨n, rfl⟩, by simpa [Instr.hasRet, hd, Phase.isDelayUs_of_isDelayMs hd] using h⟩
  | _ => simp [Instr.hasRet, hd] at h

/-- A point of `MEASURE` outside its delays. -/
theorem State.Point.of_measure_not_delay {n : Word} (phase : Instr.hasPhase (.measure n) s.phase = true)
    (us : s.phase.isDelayUs = false) (ms : s.phase.isDelayMs = false)
    (echo : s.phase = .rgASample ∨ s.phase = .rgBSample → s.work.ecnt.toNat ≤ n.toNat)
    (settle : s.phase = .rgSettle → s.work.dur.toNat ≤ n.toNat) : s.Point (.measure n) :=
  .of_measure phase (by simp [Instr.hasRet, us, ms]) (fun h => echo (by simpa [State.inEcho, us] using h))
    (fun h => settle (by simpa [State.inSettle, ms] using h))

/-- A delay that returns does so to a phase that asks for no more than to be a point of the command. -/
def State.ReturnsTo (i : Instr) (u : State) : Prop := ∀ q, u.work.ret = .back q → q.isPlain = true ∧ (u.goto q).Point i

theorem State.goto_work_of_isPlain (hp : p.isPlain = true) (s : State) : (s.goto p).work = s.work := by
  have poll : p.isPoll = false := by
    simp only [Phase.isPlain, Bool.and_eq_true, Bool.not_eq_true'] at hp
    exact hp.1.1.1.1
  simp [State.goto_work, poll]

theorem State.Point.returnsTo_of_delayUs (pt : s.Point i) (hs : s.phase.isDelayUs = true) (ret : u.work.ret = s.work.ret)
    (ecnt : u.work.ecnt = s.work.ecnt) : State.ReturnsTo i u := by
  intro q hq
  obtain ⟨⟨n, rfl⟩, hq'⟩ := hasRet_back_of_delayUs hs (by rw [← hq, ret]; exact pt.ret)
  have sample : q = .rgASample ∨ q = .rgBSample → (u.work.ecnt).toNat ≤ n.toNat := by
    intro h
    rw [ecnt]
    refine pt.echo n rfl ?_
    rw [State.inEcho_of_isDelayUs hs, ← ret, hq]
    rcases h with rfl | rfl <;> rfl
  obtain ⟨plain, phase, us, ms, no_settle⟩ : q.isPlain = true ∧ Instr.hasPhase (.measure n) q = true ∧ q.isDelayUs = false ∧
      q.isDelayMs = false ∧ q ≠ .rgSettle := by
    rcases hq' with rfl | rfl | rfl | rfl <;> exact ⟨rfl, rfl, rfl, rfl, nofun⟩
  refine ⟨plain, .of_measure_not_delay ?_ ?_ ?_ (fun h => ?_) (fun h => ?_)⟩
  · rw [State.goto_phase]; exact phase
  · rw [State.goto_phase]; exact us
  · rw [State.goto_phase]; exact ms
  · rw [State.goto_phase] at h; rw [State.goto_work_of_isPlain plain]; exact sample h
  · rw [State.goto_phase] at h; exact absurd h no_settle

theorem State.Point.returnsTo_of_delayMs (pt : s.Point i) (hs : s.phase.isDelayMs = true) : State.ReturnsTo i s := by
  intro q hq
  obtain ⟨⟨n, rfl⟩, rfl⟩ := hasRet_back_of_delayMs hs (by rw [← hq]; exact pt.ret)
  refine ⟨rfl, .of_measure_not_delay ?_ ?_ ?_ (fun h => ?_) (fun _ => ?_)⟩
  · rw [State.goto_phase]; rfl
  · rw [State.goto_phase]; rfl
  · rw [State.goto_phase]; rfl
  · rw [State.goto_phase] at h; rcases h with h | h <;> cases h
  · rw [State.goto_work_of_isPlain rfl]; exact pt.settle n rfl (State.inSettle_of_isDelayMs hs)

theorem State.Active.delayReturn_inv (r : s.Active i) (hs : s.phase ≠ .dmWait) (h : s.Inner u) (hr : State.ReturnsTo i u) :
    u.delayReturn.Inv := by
  rcases u.delayReturn_cases with ⟨_, e⟩ | ⟨q, hq, e⟩ <;> rw [e]
  · exact r.complete_inv hs h rfl
  · obtain ⟨plain, pt⟩ := hr q hq
    exact (r.next hs (h.goto q)).inv_of_plain pt (by rw [State.goto_phase]; exact plain)

/-- A step into `DU_WAIT` or `DU_CLEAR` leaves waits to make. -/
theorem State.Active.delayUs_inv (r : s.Active i) (pt : s.Point i) (hs : s.phase.isDelayUs = true) (h : s.Inner t)
    (ht : t.phase = .duWait ∨ t.phase = .duClear) (ret : t.work.ret = s.work.ret) (ecnt : t.work.ecnt = s.work.ecnt)
    (drem : t.work.drem ≠ 0) : t.Inv := by
  have not_ms : s.phase ≠ .dmWait := fun e => by rw [e] at hs; cases hs
  have us : t.phase.isDelayUs = true := by rcases ht with e | e <;> rw [e] <;> rfl
  refine (r.next not_ms h).inv (pt.of_delayUs hs us ret ecnt) (fun e => ?_) (fun e => ?_) ⟨fun _ => drem, fun e => ?_⟩ <;>
    rcases ht with ht | ht <;> rw [ht] at e <;> cases e

theorem State.Active.duEntry_inv (r : s.Active i) (pt : s.Point i) (hp : s.phase = .duEntry) : s.duEntry.Inv := by
  have us : s.phase.isDelayUs = true := by rw [hp]; rfl
  rcases s.duEntry_cases with ⟨_, e⟩ | ⟨hd, e⟩ <;> rw [e]
  · exact r.delayReturn_inv (by simp [hp]) (.refl s) (pt.returnsTo_of_delayUs us rfl rfl)
  · exact r.delayUs_inv pt us (s.uifClear_inner.moved _ _ rfl) (.inl rfl) rfl rfl hd

theorem State.Active.duWait_inv (r : s.Active i) (h : s.Inv) (pt : s.Point i) (hp : s.phase = .duWait) : s.duWait.Inv := by
  rcases s.duWait_cases with ⟨_, e⟩ | ⟨_, e⟩ <;> rw [e]
  · exact r.delayUs_inv pt (by rw [hp]; rfl) ((s.emit_inner _).moved _ _ rfl) (.inr rfl) rfl rfl (h.waits.1 (.inl hp))
  · exact h

theorem State.Active.duClear_inv (r : s.Active i) (pt : s.Point i) (hp : s.phase = .duClear) : s.duClear.Inv := by
  have us : s.phase.isDelayUs = true := by rw [hp]; rfl
  rcases s.duClear_cases with ⟨_, e⟩ | ⟨hd, e⟩ <;> rw [e]
  · exact r.delayReturn_inv (by simp [hp]) (s.uifClear_inner.moved { s.work with drem := s.work.drem - 1 } s.phase rfl)
      (pt.returnsTo_of_delayUs us rfl rfl)
  · exact r.delayUs_inv pt us (s.uifClear_inner.moved _ _ rfl) (.inl rfl) rfl rfl hd

theorem State.Active.dmArm_inv (r : s.Active i) (pt : s.Point i) (hp : s.phase = .dmArm) : s.dmArm.Inv := by
  have ms : s.phase.isDelayMs = true := by rw [hp]; rfl
  rcases s.dmArm_cases with ⟨_, e⟩ | ⟨hm, e⟩ <;> rw [e]
  · exact r.delayReturn_inv (by simp [hp]) (.refl s) (pt.returnsTo_of_delayMs ms)
  · -- the timer is armed, and SEQ waits for it
    have active : State.Active i { s.mstArm with phase := .dmWait } :=
      { base := { r.base with }, legal := r.legal, unfaulted := r.unfaulted, timer := fun _ => ⟨rfl, rfl⟩ }
    exact active.inv (pt.of_delayMs ms rfl rfl rfl) nofun nofun ⟨fun e => by cases e <;> contradiction, fun _ => hm⟩

theorem State.Active.dmWait_inv (r : s.Active i) (h : s.Inv) (pt : s.Point i) (hp : s.phase = .dmWait) : s.dmWait.Inv := by
  rcases s.dmWait_cases with ⟨hd, e⟩ | ⟨_, e⟩ <;> rw [e]
  · -- a timer that is done is no longer armed
    have disarmed : s.mst.armed ≠ true := fun ha => by rw [(r.timer ha).2] at hd; cases hd
    have active : State.Active i { s.emit .msDoneRd with work.mrem := s.work.mrem - 1, phase := .dmArm } :=
      { base := { r.base with }, legal := r.legal, unfaulted := r.unfaulted, timer := fun ha => absurd ha disarmed }
    exact active.inv_of_plain (pt.of_delayMs (by rw [hp]; rfl) rfl rfl rfl) rfl
  · exact h

/-! The clock commands (40_clock R121 to R126). -/

theorem State.Inv.not_armed (h : s.Inv) (hs : s.phase ≠ .dmWait) : s.mst.armed = false :=
  Bool.eq_false_iff.mpr fun ha => hs (h.armed ha).1

/-- A move after which SEQ is where it was, with the command and the registers it had. -/
theorem State.Inv.same_phase (h : s.Inv) (cfg : t.cfg = s.cfg) (phase : t.phase = s.phase) (cmd : t.cmd = s.cmd)
    (work : t.work = s.work) (res : t.res = s.res) (cnt : t.clk.cnt.toNat < 2 ^ s.cfg.clkW) (mem : Memory.wf t.mem = true)
    (armed : t.mst.armed = true → s.phase = .dmWait ∧ t.mst.done = false)
    (reinit : t.faults.clockReinit = true → s.phase = .ckInit ∧ t.clk.run = true) : t.Inv := by
  have point : ∀ {j}, s.Point j → t.Point j := fun pt => by
    obtain ⟨hp, hr, hb, he, hs⟩ := pt
    constructor
    · rw [phase]; exact hp
    · rw [phase, work]; exact hr
    · rw [phase, work]; exact hb
    · simpa only [State.inEcho, phase, work] using he
    · simpa only [State.inSettle, phase, work] using hs
  constructor
  · rw [cfg]; exact h.cfg
  · exact mem
  · rw [cfg]; exact cnt
  · rw [res]; exact h.status
  · rw [work]; exact h.ekind
  · rw [work]; exact h.sentinel
  · rw [res]; exact h.range
  · rw [phase]; exact armed
  · rw [phase, work, cfg]; exact h.polls
  · rw [cmd]; exact h.cmd
  · rw [phase, cmd]
    intro hi hd
    obtain ⟨j, hj, pt⟩ := h.point hi hd
    exact ⟨j, hj, point pt⟩
  · rw [phase, work, cfg]; exact h.abort
  · rw [phase]; exact reinit
  · rw [phase, work]; exact h.waits

theorem State.Active.ckInit_inv (r : s.Active i) (h : s.Inv) (hp : s.phase = .ckInit) : s.ckInit.Inv := by
  unfold State.ckInit
  split
  · next run => exact h.same_phase rfl rfl rfl rfl rfl h.cnt h.mem h.armed (fun _ => ⟨hp, run⟩)
  · refine State.Base.complete_inv ?_ rfl ?_ ?_
    · have b : s.dropDraw.Base := by
        obtain ⟨hcfg, hmem, hcnt, hstatus, hekind, hsentinel, hrange, hcmd⟩ := h.base
        constructor <;> simpa
      refine { b with cnt := ?_ }
      show (cutCnt s.cfg s.draw.word).toNat < 2 ^ s.dropDraw.cfg.clkW
      rw [State.dropDraw_cfg]
      exact toNat_ofNat_mod_lt _ _
    · simpa using h.not_armed (by simp [hp])
    · simpa using r.unfaulted

theorem State.Active.ckNow_inv (r : s.Active i) (hp : s.phase = .ckNow) : s.ckNow.Inv := by
  have b : State.Base { s.clkRead with res.value := s.clk.cnt, res.valueWritten := true } := { r.base with }
  exact b.complete_inv rfl (r.disarmed (by simp [hp])) r.unfaulted

theorem execInitClock_inv (r : s.Active .initClock) (h : s.Inv) (hd : s.phase ≠ .decode) (e : execInitClock s = .next t) :
    t.Inv := by
  unfold execInitClock at e
  split at e <;> rename_i hp <;> cases e
  · exact absurd hp hd
  · exact r.ckInit_inv h hp

theorem execClockNow_inv (r : s.Active .clockNow) (hd : s.phase ≠ .decode) (e : execClockNow s = .next t) : t.Inv := by
  unfold execClockNow at e
  split at e <;> rename_i hp <;> cases e
  · exact absurd hp hd
  · exact r.ckNow_inv hp

theorem execDelayUs_inv {n : Word} (r : s.Active (.delayUs n)) (h : s.Inv) (pt : s.Point (.delayUs n)) (hd : s.phase ≠ .decode)
    (e : execDelayUs n s = .next t) : t.Inv := by
  unfold execDelayUs at e
  split at e <;> rename_i hp <;> cases e
  · exact absurd hp hd
  · exact r.duEntry_inv pt hp
  · exact r.duWait_inv h pt hp
  · exact r.duClear_inv pt hp

theorem execDelayMs_inv {n : Word} (r : s.Active (.delayMs n)) (h : s.Inv) (pt : s.Point (.delayMs n)) (hd : s.phase ≠ .decode)
    (e : execDelayMs n s = .next t) : t.Inv := by
  unfold execDelayMs at e
  split at e <;> rename_i hp <;> cases e
  · exact absurd hp hd
  · exact r.dmArm_inv pt hp
  · exact r.dmWait_inv h pt hp

end

/-! `MEASURE` (42_ranger R181 to R184). -/

section
variable {s t u : State} {n : Word}

/-- A step into a delay that returns to the trigger pulse or to a sample. -/
theorem State.Active.enterDelayUs_inv {m : Word} {q : Phase} (r : s.Active (.measure n)) (hs : s.phase ≠ .dmWait) (h : s.Inner u)
    (ret : Instr.hasRet (.measure n) .duEntry (.back q) = true)
    (echo : q = .rgASample ∨ q = .rgBSample → u.work.ecnt.toNat ≤ n.toNat) : (u.enterDelayUs m (.back q)).Inv := by
  have inner : s.Inner (u.enterDelayUs m (.back q)) := h.moved _ _ rfl
  refine (r.next hs inner).inv_of_plain (.of_measure rfl ret (fun e => echo ?_) (fun e => ?_)) rfl
  · rw [State.inEcho_of_isDelayUs rfl] at e
    simpa using e
  · rw [State.inSettle_of_isDelayUs rfl] at e
    cases e

/-- The end of READ_ECHO: a status of ranging, a duration within the timeout, the sentinel where there is no measurement. -/
theorem State.Active.settle_inv {val : Bool} {dur : Word} {ek : Status} (r : s.Active (.measure n)) (hs : s.phase ≠ .dmWait)
    (h : s.Inner u) (hk : ek.code = 0 ∨ ek.code = 4 ∨ ek.code = 5) (hv : val = false → dur = 0) (hd : dur.toNat ≤ n.toNat) :
    (u.settle val dur ek).Inv := by
  obtain ⟨base, legal, unfaulted, timer⟩ := r.next hs h
  have active : State.Active (.measure n) (u.settle val dur ek) :=
    { base := { base with ekind := hk, sentinel := hv }
      legal := legal
      unfaulted := unfaulted
      timer := fun ha => by
        have disarmed : u.mst.armed = false := by rw [h.mst, r.disarmed hs]
        rw [show (u.settle val dur ek).mst = u.mst from rfl, disarmed] at ha
        cases ha }
  refine active.inv_of_plain (.of_measure rfl rfl (fun e => ?_) (fun _ => hd)) rfl
  rw [State.inEcho_of_isDelayMs rfl] at e
  cases e

theorem toNat_le_of_not_echoExceeds {e : BitVec 33} (h : ¬ echoExceeds e n = true) : e.toNat ≤ n.toNat := by
  have le : e ≤ n.setWidth 33 := by simpa [echoExceeds] using h
  bv_omega

theorem State.Active.trigEnd_inv (r : s.Active (.measure n)) (hp : s.phase = .rgTrig2) : s.trigEnd.Inv := by
  have inner : s.Inner s.trigEnd := (s.drive_inner false).moved _ _ rfl
  exact (r.next (by simp [hp]) inner).inv_of_plain (.of_measure_not_delay rfl rfl rfl (fun _ => Nat.zero_le _) nofun) rfl

theorem State.Active.sampleA_inv (r : s.Active (.measure n)) (hp : s.phase = .rgASample) : (s.sampleA n).Inv := by
  have hs : s.phase ≠ .dmWait := by simp [hp]
  have counted := s.echoSample_inner.moved { s.echoSample.work with ecnt := s.work.ecnt + 1 } s.echoSample.phase rfl
  unfold State.sampleA
  split
  · have rise : s.Inner { s.echoSample with work.ecnt := 0, phase := .rgBSample } := s.echoSample_inner.moved _ _ rfl
    exact (r.next hs rise).inv_of_plain (.of_measure_not_delay rfl rfl rfl (fun _ => Nat.zero_le _) nofun) rfl
  · split
    · exact r.settle_inv hs counted (.inr (.inl rfl)) (fun _ => rfl) (Nat.zero_le _)
    · next within => exact r.enterDelayUs_inv hs counted rfl (fun _ => toNat_le_of_not_echoExceeds within)

theorem State.Active.sampleB_inv (r : s.Active (.measure n)) (pt : s.Point (.measure n)) (hp : s.phase = .rgBSample) :
    (s.sampleB n).Inv := by
  have hs : s.phase ≠ .dmWait := by simp [hp]
  have counted := s.echoSample_inner.moved { s.echoSample.work with ecnt := s.work.ecnt + 1 } s.echoSample.phase rfl
  have ecnt : s.work.ecnt.toNat ≤ n.toNat := pt.echo n rfl (by simp [State.inEcho, hp])
  unfold State.sampleB
  split
  · refine r.settle_inv hs s.echoSample_inner (.inl rfl) nofun ?_
    rw [BitVec.toNat_setWidth]
    exact (Nat.mod_le _ _).trans ecnt
  · split
    · exact r.settle_inv hs counted (.inr (.inr rfl)) (fun _ => rfl) (Nat.zero_le _)
    · next within => exact r.enterDelayUs_inv hs counted rfl (fun _ => toNat_le_of_not_echoExceeds within)

theorem State.Active.rgSettle_inv (r : s.Active (.measure n)) (hp : s.phase = .rgSettle) : s.rgSettle.Inv := by
  have b : State.Base { s with res.rngValid := s.work.val, res.rngDuration := s.work.dur,
                               res.rngDistance := distance s.work.dur, res.rngWritten := true } :=
    { r.base with range := ⟨r.base.sentinel, rfl⟩ }
  have legal : Code.legal s.work.ekind = true := by
    rcases r.base.ekind with e | e | e <;> rw [e] <;> rfl
  exact b.complete_inv legal (r.disarmed (by simp [hp])) r.unfaulted

theorem execMeasure_inv (r : s.Active (.measure n)) (h : s.Inv) (pt : s.Point (.measure n)) (hd : s.phase ≠ .decode)
    (e : execMeasure n s = .next t) : t.Inv := by
  unfold execMeasure at e
  split at e <;> rename_i hp <;> cases e
  · exact absurd hp hd
  · exact r.enterDelayUs_inv (by simp [hp]) (s.drive_inner _) rfl (fun h => by rcases h with h | h <;> cases h)
  · exact r.enterDelayUs_inv (by simp [hp]) (s.drive_inner _) rfl (fun h => by rcases h with h | h <;> cases h)
  · exact r.trigEnd_inv hp
  · exact r.sampleA_inv hp
  · exact r.sampleB_inv pt hp
  · exact r.rgSettle_inv hp
  · exact r.duEntry_inv pt hp
  · exact r.duWait_inv h pt hp
  · exact r.duClear_inv pt hp
  · exact r.dmArm_inv pt hp
  · exact r.dmWait_inv h pt hp

end

/-! SEQ's turn, and the step. -/

section
variable {i : Instr} {s t : State}

theorem exec_inv (r : s.Active i) (h : s.Inv) (pt : s.Point i) (hd : s.phase ≠ .decode) (e : exec i s = .next t) : t.Inv := by
  cases i with
  | initClock => exact execInitClock_inv r h hd e
  | clockNow => exact execClockNow_inv r hd e
  | delayUs n => exact execDelayUs_inv r h pt hd e
  | delayMs n => exact execDelayMs_inv r h pt hd e
  | i2cWriteByte addr data => exact execI2cWriteByte_inv r h pt hd e
  | i2cWriteBytes addr count buf => exact execI2cWriteBytes_inv r h pt hd e
  | i2cReadBytes addr reg count buf => exact execI2cReadBytes_inv r h pt hd e
  | measure timeout => exact execMeasure_inv r h pt hd e

/-- `DECODE` enters the first phase of the command (30_encoding R104). -/
theorem State.Active.begin_inv (r : s.Active i) (hp : s.phase = .decode) : (s.begin i).Inv := by
  have hs : s.phase ≠ .dmWait := by simp [hp]
  have enter : ∀ p, Phase.isPlain p = true → (s.goto p).Point i → (s.goto p).Inv := fun p plain pt =>
    (r.next hs (State.Inner.goto (.refl s) p)).inv_of_plain pt (by rw [State.goto_phase]; exact plain)
  have wait : i.isI2c = true → i.needsByte .i2IdlePoll = none → (s.goto .i2IdlePoll).Inv := by
    intro hi byte
    have active := r.next hs (State.Inner.goto (.refl s) .i2IdlePoll)
    have cleared : (s.goto .i2IdlePoll).work.polls = 0 := by simp [State.goto_work, hp, Phase.isPoll]
    have pt : (s.goto .i2IdlePoll).Point i := .of_isI2c hi (by rw [State.goto_phase]; exact hasPhase_of_isI2cCommon hi rfl)
      (fun c hc => by rw [State.goto_phase, byte] at hc; cases hc)
    refine active.inv pt (fun _ => ?_) (fun e => ?_) ⟨fun e => ?_, fun e => ?_⟩
    · rw [cleared]; exact Config.pollLimit_pos active.base.cfg
    · rw [State.goto_phase] at e; cases e
    · rw [State.goto_phase] at e; rcases e with e | e <;> cases e
    · rw [State.goto_phase] at e; cases e
  cases i with
  | initClock => exact enter _ rfl ⟨by rw [State.goto_phase]; rfl, by rw [State.goto_phase]; rfl, nofun, nofun, nofun⟩
  | clockNow => exact enter _ rfl ⟨by rw [State.goto_phase]; rfl, by rw [State.goto_phase]; rfl, nofun, nofun, nofun⟩
  | delayUs n =>
    have inner : s.Inner (s.enterDelayUs n .done) := (State.Inner.refl s).moved _ _ rfl
    exact (r.next hs inner).inv_of_plain ⟨rfl, rfl, nofun, nofun, nofun⟩ rfl
  | delayMs n =>
    have inner : s.Inner (s.enterDelayMs n .done) := (State.Inner.refl s).moved _ _ rfl
    exact (r.next hs inner).inv_of_plain ⟨rfl, rfl, nofun, nofun, nofun⟩ rfl
  | i2cWriteByte addr data => exact wait rfl rfl
  | i2cWriteBytes addr count buf => exact wait rfl rfl
  | i2cReadBytes addr reg count buf => exact wait rfl rfl
  | measure n =>
    refine enter _ rfl (.of_measure_not_delay ?_ ?_ ?_ (fun h => ?_) (fun h => ?_)) <;> rw [State.goto_phase] at *
    · rfl
    · rfl
    · rfl
    · rcases h with h | h <;> cases h
    · cases h

theorem State.Inv.seqStep_inv (h : s.Inv) (e : s.seqStep = .next t) : t.Inv := by
  rcases State.seqStep_cases e with ⟨_, e'⟩ | ⟨_, _, e'⟩ | ⟨hf, hp, e'⟩ | ⟨hf, hi, hp, _⟩
  · cases e'; exact h
  · cases e'; exact h
  · unfold State.decodeStep at e'
    split at e'
    · next i hd =>
      rw [exec_of_decode i hp] at e'
      cases e'
      exact (h.active hd hf).begin_inv hp
    · cases e'
      exact h.base.complete_inv rfl (h.not_armed (by simp [hp])) hf
  · obtain ⟨i, hd, pt⟩ := h.point hi hp
    rw [State.seqStep_of_later hf hi hp h.cmd hd] at e
    exact exec_inv (h.active hd hf) h pt hp e

theorem State.Inv.raise_inv {f : ModelFault} (h : s.Inv) (hf : (s.faults.add f).clockReinit = s.faults.clockReinit) :
    (s.raise f).Inv :=
  h.same_phase rfl rfl rfl rfl rfl h.cnt h.mem h.armed (fun e => h.reinit (hf.symm.trans e))

/-- An issue that is latched finds SEQ idle, and leaves the timer disarmed and no `CLOCK_REINIT` (60_exceptions R224). -/
theorem State.Inv.latch_inv (h : s.Inv) (hp : s.phase = .idle) (d : Desc) : ((s.emit (.issue d)).latch d).Inv :=
  { h with
    armed := fun ha => by rw [State.latch_mst, State.emit_mst, h.not_armed (by simp [hp])] at ha; cases ha
    polls := nofun
    cmd := rfl
    point := fun _ hd => absurd rfl hd
    abort := nofun
    reinit := fun e => by rw [(h.reinit e).1] at hp; cases hp
    waits := ⟨fun e => by cases e <;> contradiction, nofun⟩ }

theorem State.Inv.act_inv {m : Move} (h : s.Inv) (e : s.act m = .next t) : t.Inv := by
  rcases State.act_next e with ⟨_, e⟩ | ⟨_, _, rfl⟩ | ⟨_, _, rfl⟩ | ⟨d, _, _, rfl⟩ | ⟨r, _, _, e⟩ | ⟨a, v, _, _, e⟩ | ⟨_, rfl⟩
  · exact h.seqStep_inv e
  · exact h.same_phase rfl rfl rfl rfl rfl (toNat_ofNat_mod_lt _ _) h.mem h.armed h.reinit
  · exact h.same_phase rfl rfl rfl rfl rfl h.cnt h.mem nofun h.reinit
  · rcases s.issue_cases d with ⟨hp, e⟩ | ⟨_, e⟩ <;> rw [e]
    · exact h.latch_inv hp d
    · exact h.raise_inv rfl
  · obtain ⟨_, ⟨v, _, rfl⟩ | ⟨_, rfl⟩⟩ := State.hostRead_next e
    · exact h.same_phase rfl rfl rfl rfl rfl h.cnt h.mem h.armed h.reinit
    · exact h.raise_inv rfl
  · obtain ⟨_, rfl⟩ := State.hostStore_next e
    exact h.same_phase rfl rfl rfl rfl rfl h.cnt (Memory.wf_write h.mem a v) h.armed h.reinit
  · exact h

theorem State.Inv.dropMove (h : s.Inv) : s.dropMove.Inv :=
  h.same_phase (by simp) (by simp) (by simp) (by simp) (by simp) (by simpa using h.cnt) (by simpa using h.mem)
    (by simpa using h.armed) (by simpa using h.reinit)

end

/-- Settles O59: each agent's move keeps the invariant; SEQ's by the point it is at, whose successors are points of the same
command. -/
theorem stepKeepsInv : Obligations.StepKeepsInv := fun _ _ h e => h.dropMove.act_inv e

end Sys2Proof.Machine
end

/-! ### What a SEQ step does to memory and to the peripheral, as `HIST` tells it (O25, O54) -/

section
namespace Sys2Proof.Machine

/-- May a SEQ step of command `i` append `e`, for its peripheral access (30_encoding R99 to R101)? The other events are not
restricted here. -/
def Event.FitsPeripheral (i : Instr) (e : Event) : Prop :=
  match e with
  | .pRd r _ => i.isI2c = true ∧ (r = .status ∨ r = .rxdr)
  | .pWr r v => i.isI2c = true ∧ ((r = .clear ∧ v = clearWord) ∨ (r = .txdr ∧ ∃ b : Byte, v = txdrWord b) ∨ r = .ctrl)
  | .pStop => i.isI2c = true
  | _ => True

/-- `HIST` tells what happened from `s` to `t`: the events appended fit the peripheral accesses of `i`, and the memory writes
among them made the memory of `t` (20_memory R73). -/
def State.Logs (i : Instr) (s t : State) : Prop :=
  ∃ es, t.hist = s.hist ++ es ∧ t.mem = replayWrites s.mem es ∧ ∀ e ∈ es, e.FitsPeripheral i

theorem replayWrites_append (m : Memory) (h k : List Event) : replayWrites m (h ++ k) = replayWrites (replayWrites m h) k :=
  List.foldl_append

/-! How a step's log is told from what it does. -/

section
variable {i : Instr} {s t u : State} {e : Event}

theorem State.Logs.nothing (hist : t.hist = s.hist) (mem : t.mem = s.mem) : State.Logs i s t :=
  ⟨[], by simpa using hist, mem, by simp⟩

theorem State.Logs.of_event (hist : t.hist = s.hist ++ [e]) (mem : t.mem = replayWrites s.mem [e]) (he : e.FitsPeripheral i) :
    State.Logs i s t :=
  ⟨[e], hist, mem, by simpa using he⟩

theorem State.Logs.trans (h : State.Logs i s u) (k : State.Logs i u t) : State.Logs i s t := by
  obtain ⟨es, hist, mem, fits⟩ := h
  obtain ⟨fs, hist', mem', fits'⟩ := k
  refine ⟨es ++ fs, by rw [hist', hist, List.append_assoc], by rw [mem', mem, replayWrites_append], fun e he => ?_⟩
  rcases List.mem_append.mp he with he | he
  · exact fits e he
  · exact fits' e he

/-- Working registers and `PHASE` are free. -/
theorem State.Logs.moved (h : State.Logs i s u) (x : Work) (p : Phase) : State.Logs i s { u with work := x, phase := p } := h

theorem State.Logs.goto (h : State.Logs i s u) (p : Phase) : State.Logs i s (u.goto p) :=
  h.trans (.nothing (u.goto_hist p) (u.goto_mem p))

theorem State.Logs.complete (h : State.Logs i s u) (c : Code) : State.Logs i s (u.complete c) :=
  h.trans (.of_event (u.complete_hist c) rfl trivial)

theorem State.Logs.delayReturn (h : State.Logs i s u) : State.Logs i s u.delayReturn := by
  rcases u.delayReturn_cases with ⟨_, e⟩ | ⟨p, _, e⟩ <;> rw [e]
  · exact h.complete 0
  · exact h.goto p

theorem State.Logs.waitFail (h : State.Logs i s u) (w : Wait) : State.Logs i s (u.waitFail w) := by
  unfold State.waitFail
  split
  · exact h.moved _ _
  · exact h.complete _

theorem State.logs_refl (s : State) : State.Logs i s s := .nothing rfl rfl

end

/-! What the accesses log, those of the peripheral first: only an I2C command may make them. -/

section
variable {i : Instr} (s : State)

theorem State.pread_logs {r : PReg} (hi : i.isI2c = true) (hr : r = .status ∨ r = .rxdr) : State.Logs i s (s.pread r) :=
  .of_event (s.pread_hist r) (s.pread_mem r) ⟨hi, hr⟩

theorem State.pwrite_ctrl_logs (v : Word) (hi : i.isI2c = true) : State.Logs i s (s.pwrite .ctrl v) :=
  .of_event (s.pwrite_hist _ _) rfl ⟨hi, .inr (.inr rfl)⟩

theorem State.pwrite_txdr_logs (b : Byte) (hi : i.isI2c = true) : State.Logs i s (s.pwrite .txdr (txdrWord b)) :=
  .of_event (s.pwrite_hist _ _) rfl ⟨hi, .inr (.inl ⟨rfl, b, rfl⟩)⟩

theorem State.pwrite_clear_logs (hi : i.isI2c = true) : State.Logs i s (s.pwrite .clear clearWord) :=
  .of_event (s.pwrite_hist _ _) rfl ⟨hi, .inl ⟨rfl, rfl⟩⟩

theorem State.setStop_logs (hi : i.isI2c = true) : State.Logs i s s.setStop := .of_event s.setStop_hist rfl hi

theorem State.memRead_logs (a : Word) : State.Logs i s (s.memRead a) := .of_event (s.memRead_hist a) rfl trivial

theorem State.memWrite_logs (a : Word) (v : Byte) : State.Logs i s (s.memWrite a v) := .of_event (s.memWrite_hist a v) rfl trivial

theorem State.uifClear_logs : State.Logs i s s.uifClear := .of_event s.uifClear_hist rfl trivial

theorem State.drive_logs (l : Bool) : State.Logs i s (s.drive l) := .of_event (s.drive_hist l) rfl trivial

theorem State.echoSample_logs : State.Logs i s s.echoSample := .of_event s.echoSample_hist s.echoSample_mem trivial

/-! What the phases several commands share log. -/

theorem State.polled_logs (hi : i.isI2c = true) : State.Logs i s s.polled := (s.pread_logs hi (.inl rfl)).moved _ _

theorem State.waitStep_logs {s : State} {w : Wait} {n : Phase} (hi : i.isI2c = true) (hp : s.phase = w.phase) :
    State.Logs i s (s.waitStep w n) := by
  rcases State.waitStep_cases (n := n) hp with ⟨_, h⟩ | ⟨_, _, h⟩ | ⟨_, _, _, h⟩ | ⟨_, _, _, h⟩ <;> rw [h]
  · exact (s.pread_logs hi (.inl rfl)).goto n
  · exact s.pread_logs hi (.inl rfl)
  · exact (s.polled_logs hi).waitFail w
  · exact s.polled_logs hi

theorem State.abortPoll_logs (hi : i.isI2c = true) : State.Logs i s s.abortPoll := by
  rcases s.abortPoll_cases with ⟨_, h⟩ | ⟨_, _, h⟩ | ⟨_, _, h⟩ <;> rw [h]
  · exact (s.pread_logs hi (.inl rfl)).moved _ _
  · exact (s.polled_logs hi).moved _ _
  · exact (s.polled_logs hi).moved _ _

theorem State.duEntry_logs : State.Logs i s s.duEntry := by
  rcases s.duEntry_cases with ⟨_, h⟩ | ⟨_, h⟩ <;> rw [h]
  · exact s.logs_refl.delayReturn
  · exact s.uifClear_logs.moved _ _

theorem State.duWait_logs : State.Logs i s s.duWait := by
  rcases s.duWait_cases with ⟨_, h⟩ | ⟨_, h⟩ <;> rw [h]
  · exact .of_event (s.emit_hist _) rfl trivial
  · exact s.logs_refl

theorem State.duClear_logs : State.Logs i s s.duClear := by
  rcases s.duClear_cases with ⟨_, h⟩ | ⟨_, h⟩ <;> rw [h]
  · exact (s.uifClear_logs.moved _ _).delayReturn
  · exact s.uifClear_logs.moved _ _

theorem State.dmArm_logs : State.Logs i s s.dmArm := by
  rcases s.dmArm_cases with ⟨_, h⟩ | ⟨_, h⟩ <;> rw [h]
  · exact s.logs_refl.delayReturn
  · exact .of_event s.mstArm_hist rfl trivial

theorem State.dmWait_logs : State.Logs i s s.dmWait := by
  rcases s.dmWait_cases with ⟨_, h⟩ | ⟨_, h⟩ <;> rw [h]
  · exact .of_event (s.emit_hist _) rfl trivial
  · exact s.logs_refl

theorem State.ckInit_logs : State.Logs i s s.ckInit := by
  unfold State.ckInit
  split
  · exact .of_event (s.raise_hist _) rfl trivial
  · refine State.Logs.complete ?_ _
    exact .of_event rfl s.dropDraw_mem (e := .clkInit) trivial

theorem State.ckNow_logs : State.Logs i s s.ckNow := by
  refine State.Logs.complete ?_ _
  exact .of_event (e := .clkRd s.clk.cnt) rfl rfl trivial

theorem State.sampleA_logs (timeout : Word) : State.Logs i s (s.sampleA timeout) := by
  unfold State.sampleA
  split
  · exact s.echoSample_logs.moved _ _
  · split <;> exact s.echoSample_logs.moved _ _

theorem State.sampleB_logs (timeout : Word) : State.Logs i s (s.sampleB timeout) := by
  unfold State.sampleB
  split
  · exact s.echoSample_logs.moved _ _
  · split <;> exact s.echoSample_logs.moved _ _

theorem State.rgSettle_logs : State.Logs i s s.rgSettle := by
  refine State.Logs.complete ?_ _
  exact .nothing rfl rfl

theorem State.txFetch_logs {buf : Word} {s t : State} (h : s.txFetch buf = .next t) : State.Logs i s t := by
  obtain ⟨_, rfl⟩ := State.txFetch_next h
  exact (s.memRead_logs _).moved _ _

theorem State.rxStore_logs {count : Byte} {buf : Word} {s t : State} (h : s.rxStore count buf = .next t) : State.Logs i s t := by
  obtain ⟨_, rfl⟩ := State.rxStore_next h
  exact ((s.memWrite_logs _ _).moved _ _).goto _

end

/-! What one SEQ step of each command logs, phase by phase in the order of the meaning's arms. -/

section
variable {s t : State}

theorem execInitClock_logs (h : execInitClock s = .next t) : State.Logs .initClock s t := by
  unfold execInitClock at h
  split at h <;> cases h
  · exact s.logs_refl.goto _
  · exact s.ckInit_logs

theorem execClockNow_logs (h : execClockNow s = .next t) : State.Logs .clockNow s t := by
  unfold execClockNow at h
  split at h <;> cases h
  · exact s.logs_refl.goto _
  · exact s.ckNow_logs

theorem execDelayUs_logs {n : Word} (h : execDelayUs n s = .next t) : State.Logs (.delayUs n) s t := by
  unfold execDelayUs at h
  split at h <;> cases h
  · exact s.logs_refl.moved _ _
  · exact s.duEntry_logs
  · exact s.duWait_logs
  · exact s.duClear_logs

theorem execDelayMs_logs {n : Word} (h : execDelayMs n s = .next t) : State.Logs (.delayMs n) s t := by
  unfold execDelayMs at h
  split at h <;> cases h
  · exact s.logs_refl.moved _ _
  · exact s.dmArm_logs
  · exact s.dmWait_logs

theorem execI2cWriteByte_logs {a : Addr7} {b : Byte} (h : execI2cWriteByte a b s = .next t) :
    State.Logs (.i2cWriteByte a b) s t := by
  unfold execI2cWriteByte at h
  split at h <;> cases h
  · exact s.logs_refl.goto _
  · exact State.waitStep_logs rfl ‹_›
  · exact (s.pwrite_ctrl_logs _ rfl).goto _
  · exact State.waitStep_logs rfl ‹_›
  · exact (s.pwrite_txdr_logs _ rfl).goto _
  · exact State.waitStep_logs rfl ‹_›
  · exact (s.setStop_logs rfl).goto _
  · exact State.waitStep_logs rfl ‹_›
  · exact (s.pwrite_clear_logs rfl).complete _
  · exact (s.setStop_logs rfl).moved _ _
  · exact s.abortPoll_logs rfl
  · exact (s.pwrite_clear_logs rfl).complete _

theorem execI2cWriteBytes_logs {a : Addr7} {c : Byte} {buf : Word} (h : execI2cWriteBytes a c buf s = .next t) :
    State.Logs (.i2cWriteBytes a c buf) s t := by
  unfold execI2cWriteBytes at h
  split at h
  -- the fetch is the only phase that may stop on an access (20_memory R69)
  case h_5 => exact State.txFetch_logs h
  all_goals cases h
  · exact s.logs_refl.goto _
  · exact State.waitStep_logs rfl ‹_›
  · exact ((s.pwrite_ctrl_logs _ rfl).moved _ _).goto _
  · exact State.waitStep_logs rfl ‹_›
  · exact ((s.pwrite_txdr_logs _ rfl).moved _ _).goto _
  · exact State.waitStep_logs rfl ‹_›
  · exact (s.setStop_logs rfl).goto _
  · exact State.waitStep_logs rfl ‹_›
  · exact (s.pwrite_clear_logs rfl).complete _
  · exact (s.setStop_logs rfl).moved _ _
  · exact s.abortPoll_logs rfl
  · exact (s.pwrite_clear_logs rfl).complete _

theorem execI2cReadBytes_logs {a : Addr7} {r c : Byte} {buf : Word} (h : execI2cReadBytes a r c buf s = .next t) :
    State.Logs (.i2cReadBytes a r c buf) s t := by
  unfold execI2cReadBytes at h
  split at h
  -- the store is the only phase that may stop on an access (20_memory R69)
  case h_10 => exact State.rxStore_logs h
  all_goals cases h
  · exact s.logs_refl.goto _
  · exact State.waitStep_logs rfl ‹_›
  · exact (s.pwrite_ctrl_logs _ rfl).goto _
  · exact State.waitStep_logs rfl ‹_›
  · exact (s.pwrite_txdr_logs _ rfl).goto _
  · exact State.waitStep_logs rfl ‹_›
  · exact ((s.pwrite_ctrl_logs _ rfl).moved _ _).goto _
  · exact State.waitStep_logs rfl ‹_›
  · exact (s.pread_logs rfl (.inr rfl)).moved _ _
  · exact State.waitStep_logs rfl ‹_›
  · exact (s.pwrite_clear_logs rfl).complete _
  · exact (s.setStop_logs rfl).moved _ _
  · exact s.abortPoll_logs rfl
  · exact (s.pwrite_clear_logs rfl).complete _

theorem execMeasure_logs {timeout : Word} (h : execMeasure timeout s = .next t) : State.Logs (.measure timeout) s t := by
  unfold execMeasure at h
  split at h <;> cases h
  · exact s.logs_refl.goto _
  · exact (s.drive_logs _).moved _ _
  · exact (s.drive_logs _).moved _ _
  · exact (s.drive_logs _).moved _ _
  · exact s.sampleA_logs timeout
  · exact s.sampleB_logs timeout
  · exact s.rgSettle_logs
  · exact s.duEntry_logs
  · exact s.duWait_logs
  · exact s.duClear_logs
  · exact s.dmArm_logs
  · exact s.dmWait_logs

theorem exec_logs {i : Instr} (h : exec i s = .next t) : State.Logs i s t := by
  cases i with
  | initClock => exact execInitClock_logs h
  | clockNow => exact execClockNow_logs h
  | delayUs n => exact execDelayUs_logs h
  | delayMs n => exact execDelayMs_logs h
  | i2cWriteByte addr data => exact execI2cWriteByte_logs h
  | i2cWriteBytes addr count buf => exact execI2cWriteBytes_logs h
  | i2cReadBytes addr reg count buf => exact execI2cReadBytes_logs h
  | measure timeout => exact execMeasure_logs h

end

/-! Memory along a run (O54). -/

/-- SEQ's turn changes memory by the writes it records, and nothing else. -/
theorem State.seqStep_replays {s t : State} (h : s.seqStep = .next t) :
    ∃ es, t.hist = s.hist ++ es ∧ t.mem = replayWrites s.mem es := by
  have of_exec : ∀ i : Instr, exec i s = .next t → ∃ es, t.hist = s.hist ++ es ∧ t.mem = replayWrites s.mem es := fun i e =>
    let ⟨es, hist, mem, _⟩ := exec_logs e
    ⟨es, hist, mem⟩
  rcases State.seqStep_cases h with ⟨_, e⟩ | ⟨_, _, e⟩ | ⟨_, _, e⟩ | ⟨_, _, _, e⟩
  · cases e; exact ⟨[], by simp, rfl⟩
  · cases e; exact ⟨[], by simp, rfl⟩
  · unfold State.decodeStep at e
    split at e
    · exact of_exec _ e.symm
    · cases e; exact ⟨_, s.complete_hist _, rfl⟩
  · unfold State.phaseStep at e
    split at e
    · exact of_exec _ e.symm
    · cases e

/-- What a move from `s` to `t` makes of memory and idleness: while SEQ is busy, memory follows the writes recorded; and an idle
SEQ stays idle unless an issue is recorded. -/
def State.ReplaysMove (s t : State) : Prop :=
  ∃ es, t.hist = s.hist ++ es ∧
    ((s.phase ≠ .idle ∧ t.mem = replayWrites s.mem es) ∨ (s.phase = .idle ∧ (t.phase = .idle ∨ ∃ d, .issue d ∈ es)))

theorem State.ReplaysMove.of_same_phase {s t : State} {es : List Event} (hist : t.hist = s.hist ++ es)
    (phase : t.phase = s.phase) (mem : t.mem = replayWrites s.mem es) : s.ReplaysMove t := by
  by_cases hp : s.phase = .idle
  · exact ⟨es, hist, .inr ⟨hp, .inl (phase.trans hp)⟩⟩
  · exact ⟨es, hist, .inl ⟨hp, mem⟩⟩

theorem State.ReplaysMove.refl (s : State) : s.ReplaysMove s := .of_same_phase (s.hist.append_nil).symm rfl rfl

theorem State.seqStep_of_idle {s : State} (h : s.phase = .idle) : s.seqStep = .next s := by simp [State.seqStep, h]

/-- No agent but SEQ writes memory while SEQ is busy, and only HOST's issue ends SEQ's idleness (60_exceptions R224). -/
theorem State.act_replaysMove {m : Move} {s t : State} (h : s.act m = .next t) : s.ReplaysMove t := by
  rcases State.act_next h with ⟨_, e⟩ | ⟨_, _, rfl⟩ | ⟨_, _, rfl⟩ | ⟨d, _, _, rfl⟩ | ⟨r, _, _, e⟩ | ⟨a, v, _, _, e⟩ | ⟨_, rfl⟩
  · by_cases hp : s.phase = .idle
    · rw [State.seqStep_of_idle hp] at e
      cases e; exact .refl _
    · obtain ⟨es, hist, mem⟩ := State.seqStep_replays e
      exact ⟨es, hist, .inl ⟨hp, mem⟩⟩
  · exact .of_same_phase s.tick_hist rfl rfl
  · exact .of_same_phase s.msExpire_hist rfl rfl
  · rcases s.issue_cases d with ⟨hp, e⟩ | ⟨_, e⟩ <;> rw [e]
    · exact ⟨[.issue d], by simp, .inr ⟨hp, .inr ⟨d, by simp⟩⟩⟩
    · exact .of_same_phase (s.raise_hist _) rfl rfl
  · obtain ⟨_, ⟨v, _, rfl⟩ | ⟨_, rfl⟩⟩ := State.hostRead_next e
    · exact .refl _
    · exact .of_same_phase (s.raise_hist _) rfl rfl
  · obtain ⟨hp, rfl⟩ := State.hostStore_next e
    exact ⟨[], by simp, .inr ⟨hp, .inl hp⟩⟩
  · exact .refl _

/-- A run that ends while SEQ is busy and in which HOST issues nothing was busy all along, and replays its writes. -/
theorem run_replays {k : Nat} {s t : State} (h : Sys2Proof.core.run k s = .next t) (busy : t.phase ≠ .idle) :
    ∃ es, t.hist = s.hist ++ es ∧ ((∀ d, Event.issue d ∉ es) → s.phase ≠ .idle ∧ t.mem = replayWrites s.mem es) := by
  induction k generalizing s with
  | zero => cases h; exact ⟨[], by simp, fun _ => ⟨busy, rfl⟩⟩
  | succ k ih =>
    obtain ⟨y, hy, hr⟩ := core_run_succ_next h
    obtain ⟨es, hist, move⟩ := State.act_replaysMove (s := s.dropMove) hy
    obtain ⟨fs, hist', rest⟩ := ih hr
    rw [State.dropMove_hist] at hist
    rw [State.dropMove_phase, State.dropMove_mem] at move
    refine ⟨es ++ fs, by rw [hist', hist, List.append_assoc], fun unissued => ?_⟩
    obtain ⟨hyb, hmem⟩ := rest fun d hd => unissued d (List.mem_append_right _ hd)
    rcases move with ⟨hsb, mem⟩ | ⟨_, idle | ⟨d, hd⟩⟩
    · exact ⟨hsb, by rw [hmem, mem, replayWrites_append]⟩
    · exact absurd idle hyb
    · exact absurd (List.mem_append_left _ hd) (unissued d)

/-- Settles O54, by induction on the steps: SEQ's turn replays what it records, the timers and a busy HOST write no memory, and
without an issue no step of the run starts idle. -/
theorem memoryFollowsHistory : Obligations.MemoryFollowsHistory := by
  intro k s t h _ ⟨hrun, hist, unissued⟩ busy
  obtain ⟨es, hist', replays⟩ := run_replays hrun busy
  have same : es = h := List.append_cancel_left (hist'.symm.trans hist)
  subst same
  exact (replays unissued).2

/-! The peripheral accesses (O25). -/

/-- `CTRL.STOP` is bit 18 alone (10_state R29). -/
theorem ctrlStopBit_getLsbD {j : Nat} (hj : j < 32) : ctrlStopBit.getLsbD j = (j == 18) := by
  have bits : ∀ k : Fin 32, ctrlStopBit.getLsbD k.val = (k.val == 18) := by decide
  exact bits ⟨j, hj⟩

/-- Settles O25: the accesses by definition, and what a SEQ step records of the peripheral by `exec_logs`. -/
theorem peripheralAccesses : Obligations.PeripheralAccesses := by
  refine ⟨fun r s => rfl, fun r v s => rfl, fun s => rfl, fun s j hj => ?_, fun i s t es h hist => ?_⟩
  · rw [State.setStop_per, BitVec.getLsbD_or, ctrlStopBit_getLsbD hj, Bool.or_comm]
  · obtain ⟨fs, hist', _, fits⟩ := exec_logs h
    have same : fs = es := List.append_cancel_left (hist'.symm.trans hist)
    subst same
    refine ⟨fun r v he => (fits _ he).2, fun r v he => (fits _ he).2, fun hi r v => ?_⟩
    have not_i2c : i.isI2c ≠ true := by simp [hi]
    exact ⟨fun he => not_i2c (fits _ he).1, fun he => not_i2c (fits _ he).1, fun he => not_i2c (fits _ he)⟩

/-! Buffer bytes that are not admitted (O31). -/

theorem State.txFetch_not_admitted {buf : Word} {s : State} (h : s.admitted (bufferAddress buf s.work.idx) = false) :
    s.txFetch buf = .fault (.hmemNotAdmitted (bufferAddress buf s.work.idx)) := by
  simp [State.txFetch, h]

theorem State.rxStore_not_admitted {count : Byte} {buf : Word} {s : State}
    (h : s.admitted (bufferAddress buf s.work.idx) = false) :
    s.rxStore count buf = .fault (.hmemNotAdmitted (bufferAddress buf s.work.idx)) := by
  simp [State.rxStore, h]

/-- Settles O31: the fetch and the store ask for the byte's admission before anything else. -/
theorem bufferByteNotAdmitted : Obligations.BufferByteNotAdmitted := by
  refine ⟨fun addr count buf s hp ha => ?_, fun addr reg count buf s hp ha => ?_⟩
  · have arm : exec (.i2cWriteBytes addr count buf) s = s.txFetch buf := by simp [exec, execI2cWriteBytes, hp]
    exact arm.trans (State.txFetch_not_admitted ha)
  · have arm : exec (.i2cReadBytes addr reg count buf) s = s.rxStore count buf := by simp [exec, execI2cReadBytes, hp]
    exact arm.trans (State.rxStore_not_admitted ha)

end Sys2Proof.Machine
end

/-! ### `I2C_WRITE_BYTE` in the reference environment (O40) -/

section
namespace Sys2Proof.Machine

/-! The fields of `CTRL_WORD` that the reference peripheral reads. -/

section
variable (addr : Addr7) (nbytes : Byte) (rdwrn autoend : Bool)

/-- The bits of `CTRL_WORD`, field by field (30_encoding R97). -/
theorem ctrlWord_getLsbD {k : Nat} (hk : k < 32) : (ctrlWord addr nbytes rdwrn autoend).getLsbD k =
    (k == 19 && autoend || k == 17 || k == 16 && rdwrn || decide (8 ≤ k) && nbytes.getLsbD (k - 8)
      || decide (1 ≤ k) && addr.getLsbD (k - 1)) := by
  simp only [ctrlWord, bitWord, BitVec.getLsbD_or, BitVec.getLsbD_shiftLeft, BitVec.getLsbD_setWidth, BitVec.getLsbD_ofBool]
  grind

theorem ctrlWord_nbytes : (ctrlWord addr nbytes rdwrn autoend).extractLsb' 8 8 = nbytes := by
  ext k hk
  rw [BitVec.getElem_extractLsb', ctrlWord_getLsbD _ _ _ _ (by omega)]
  interval_cases k <;> simp

/-- The address byte of a write: the device address, then a 0 for the direction (30_encoding R98). -/
theorem wireAddressByte_ctrlWord : wireAddressByte (ctrlWord addr nbytes false autoend) = addr ++ 0#1 := by
  have direction : (ctrlWord addr nbytes false autoend).extractLsb' 16 1 = 0#1 := by
    ext k hk
    rw [BitVec.getElem_extractLsb', ctrlWord_getLsbD _ _ _ _ (by omega)]
    interval_cases k; simp
  have device : (ctrlWord addr nbytes false autoend).extractLsb' 1 7 = addr := by
    ext k hk
    rw [BitVec.getElem_extractLsb', ctrlWord_getLsbD _ _ _ _ (by omega)]
    interval_cases k <;> simp
  rw [wireAddressByte, direction, device]
  refine BitVec.eq_of_getLsbD_eq fun k hk => ?_
  rw [BitVec.getLsbD_append]
  interval_cases k <;> simp

end

/-! The reference peripheral (20_memory R77 to R83). -/

/-- What a wait sees of the reference peripheral: a flag (20_memory R77). -/
def Wait.seen (w : Wait) (x : RefPer) : Bool :=
  match w with
  | .idle => !(x.wedged || x.busy)
  | .tx => x.txrdy
  | .rx => x.rxrdy
  | .tc => x.tc
  | .stopf => x.stopf

theorem Wait.holds_statusWord (w : Wait) (x : RefPer) : w.holds x.statusWord = w.seen x := by
  cases w <;>
    simp [Wait.holds, Wait.seen, RefPer.statusWord, StatusWord.busy, StatusWord.txrdy, StatusWord.rxrdy, StatusWord.tc,
      StatusWord.stopf, bitWord]

/-- The reference peripheral on a free bus after the START of a one-byte write: ready for the byte if the slave is present
(20_memory R78). -/
def RefPer.started (addr : Addr7) (present : Bool) (sb : List Byte) : RefPer :=
  { RefPer.reset present false sb with
    busy := true, txrdy := present, rem := if present then 1 else 0, wire := [.s, .a (addr ++ 0#1)] }

theorem RefPer.writeCtrl_reset (addr : Addr7) (present : Bool) (sb : List Byte) :
    (RefPer.reset present false sb).writeCtrl (ctrlWord addr 1 false false) = RefPer.started addr present sb := by
  have start : (ctrlWord addr 1 false false).getLsbD 17 = true := by rw [ctrlWord_getLsbD _ _ _ _ (by omega)]; simp
  have rdwrn : (ctrlWord addr 1 false false).getLsbD 16 = false := by rw [ctrlWord_getLsbD _ _ _ _ (by omega)]; simp
  have autoend : (ctrlWord addr 1 false false).getLsbD 19 = false := by rw [ctrlWord_getLsbD _ _ _ _ (by omega)]; simp
  rw [RefPer.writeCtrl, if_pos start, rdwrn, autoend, ctrlWord_nbytes, wireAddressByte_ctrlWord]
  cases present <;> rfl

/-- The one byte goes out, and the transfer is complete (20_memory R79, R80). -/
def RefPer.sent (addr : Addr7) (data : Byte) (sb : List Byte) : RefPer :=
  { RefPer.reset true false sb with busy := true, tc := true, wire := [.s, .a (addr ++ 0#1), .d data] }

theorem RefPer.writeTxdr_started (addr : Addr7) (data : Byte) (sb : List Byte) :
    (RefPer.started addr true sb).writeTxdr (txdrWord data) = RefPer.sent addr data sb := by
  simp [RefPer.writeTxdr, RefPer.advance, RefPer.started, RefPer.sent, RefPer.reset, txdrWord]

theorem RefPer.wire_writeClear (v : Word) (x : RefPer) : (x.writeClear v).wire = x.wire := by
  unfold RefPer.writeClear; split <;> rfl

/-! The reference environment (20_memory R85). -/

/-- The environment hands SEQ's events to the peripheral and keeps the others to itself. -/
theorem RefEnv.observe_per (e : RefEnv) (ev : Event) : (e.observe ev).per = e.per.observe ev := by
  cases ev <;> rfl

theorem RefEnv.foldl_observe_per (es : List Event) (e : RefEnv) :
    (es.foldl RefEnv.observe e).per = es.foldl (fun y ev => y.observe ev) e.per :=
  (List.foldl_hom RefEnv.per fun e ev => (e.observe_per ev).symm).symm

/-- The state in which SEQ takes its turn: fed by the reference, the move taken. -/
def RefEnv.turn (e : RefEnv) (s : State) : State := (e.feed s).dropMove

section
variable (e : RefEnv) (s : State)

@[simp] theorem RefEnv.turn_cfg : (e.turn s).cfg = s.cfg := rfl
@[simp] theorem RefEnv.turn_phase : (e.turn s).phase = s.phase := rfl
@[simp] theorem RefEnv.turn_cmd : (e.turn s).cmd = s.cmd := rfl
@[simp] theorem RefEnv.turn_work : (e.turn s).work = s.work := rfl
@[simp] theorem RefEnv.turn_faults : (e.turn s).faults = s.faults := rfl
@[simp] theorem RefEnv.turn_hist : (e.turn s).hist = s.hist := rfl

end

/-- The phases at which the reference lets SEQ move and answers a read with `STATUS`. -/
def Phase.readsStatus (p : Phase) : Bool :=
  p != .idle && p != .duWait && p != .dmWait && p != .ckInit && p != .i2RxRead

theorem RefEnv.nextMove_of_readsStatus {s : State} (h : s.phase.readsStatus = true) (e : RefEnv) : e.nextMove s = .seq := by
  unfold RefEnv.nextMove
  split <;> simp_all [Phase.readsStatus]

theorem RefEnv.preadValue_turn {s : State} (h : s.phase.readsStatus = true) (e : RefEnv) :
    (e.turn s).preadValue = e.per.statusWord := by
  have value : (e.turn s).preadValue = (e.nextDraw s).word := rfl
  rw [value, RefEnv.nextDraw]
  split <;> simp_all [Phase.readsStatus]

/-- A run of machine and reference leads from wherever `P` holds to where `Q` holds. -/
def RefEnv.Leads (P Q : RefEnv → State → Prop) : Prop :=
  ∀ e s, P e s → ∃ n e' t, RefEnv.run n e s = some (e', t) ∧ Q e' t

theorem RefEnv.run_add {m n : Nat} {e e' : RefEnv} {s s' : State} (h : RefEnv.run m e s = some (e', s')) :
    RefEnv.run (m + n) e s = RefEnv.run n e' s' := by
  induction m generalizing e s with
  | zero => cases h; rw [Nat.zero_add]
  | succ m ih =>
    rw [Nat.add_right_comm]
    simp only [RefEnv.run] at h ⊢
    cases hs : e.step s with
    | none => rw [hs] at h; cases h
    | some next => rw [hs] at h; exact ih h

theorem RefEnv.Leads.trans {P Q R : RefEnv → State → Prop} (h : RefEnv.Leads P Q) (k : RefEnv.Leads Q R) :
    RefEnv.Leads P R := by
  intro e s hp
  obtain ⟨m, e', s', hm, hq⟩ := h e s hp
  obtain ⟨n, e'', t, hn, hr⟩ := k e' s' hq
  exact ⟨m + n, e'', t, (RefEnv.run_add hm).trans hn, hr⟩

theorem RefEnv.Leads.of_imp {P Q : RefEnv → State → Prop} (h : ∀ e s, P e s → Q e s) : RefEnv.Leads P Q :=
  fun e s hp => ⟨0, e, s, rfl, h e s hp⟩

theorem RefEnv.Leads.of_step {P Q : RefEnv → State → Prop}
    (h : ∀ e s, P e s → ∃ e' t, e.step s = some (e', t) ∧ Q e' t) : RefEnv.Leads P Q := by
  intro e s hp
  obtain ⟨e', t, hs, hq⟩ := h e s hp
  exact ⟨1, e', t, by simp [RefEnv.run, hs], hq⟩

/-! SEQ in the reference environment, in `BOUNDED` mode. -/

/-- SEQ is at phase `p` of the command `i`, with polls left, and the reference peripheral is `x`. -/
structure RefAt (i : Instr) (p : Phase) (x : RefPer) (e : RefEnv) (s : State) : Prop where
  phase : s.phase = p
  per : e.per = x
  latched : s.cmd = Cmd.ofDesc s.cmd.desc
  legal : decode s.cmd.desc = .ok i
  unfaulted : s.faults.clockReinit = false
  range : s.cfg.wellFormed = true
  mode : s.cfg.mode = .bounded
  polls : p.isPoll = true → s.work.polls < s.cfg.pollLimit

/-- SEQ is at phase `p` of the abort with error `c` (41_i2c R142). -/
def RefAborts (i : Instr) (p : Phase) (x : RefPer) (c : Code) (e : RefEnv) (s : State) : Prop :=
  RefAt i p x e s ∧ s.work.err = c

/-- The command is over with status `c`, and the reference peripheral's wire shows `ws`. -/
def RefEnded (c : Code) (ws : List WireSym) (e : RefEnv) (s : State) : Prop :=
  s.phase = .idle ∧ s.res.status = c ∧ e.per.wire = ws

section
variable {i : Instr} {p q : Phase} {x y : RefPer} {e e' : RefEnv} {s t : State} {w : Wait} {n : Phase}

/-- A step of the reference run is SEQ's turn with the reference's draw, and the peripheral sees what the turn records. -/
theorem RefAt.step (es : List Event) (r : RefAt i p x e s) (hp : p.readsStatus = true) (h : exec i (e.turn s) = .next t)
    (hist : t.hist = s.hist ++ es) :
    ∃ e', e.step s = some (e', t) ∧ e'.per = es.foldl (fun y ev => y.observe ev) x := by
  have hp : s.phase.readsStatus = true := r.phase ▸ hp
  have busy : s.phase ≠ .idle := fun idle => by rw [idle] at hp; cases hp
  have seq : (e.feed s).move = .seq := RefEnv.nextMove_of_readsStatus hp e
  have turn : (e.turn s).seqStep = exec i (e.turn s) := by
    by_cases hd : s.phase = .decode
    · exact State.seqStep_of_decode r.unfaulted hd r.legal
    · exact State.seqStep_of_later r.unfaulted busy hd r.latched r.legal
  have steps : Sys2Proof.Machine.step (e.feed s) = .next t := (step_of_move_seq seq).trans (turn.trans h)
  refine ⟨es.foldl RefEnv.observe e, by simp [RefEnv.step, steps, hist], ?_⟩
  rw [RefEnv.foldl_observe_per, r.per]

/-- The next phase of the same command. -/
theorem RefAt.next (r : RefAt i p x e s) (keeps : (t.cfg, t.cmd, t.faults) = (s.cfg, s.cmd, s.faults)) (hq : t.phase = q)
    (hy : e'.per = y) (polls : q.isPoll = true → t.work.polls < t.cfg.pollLimit) : RefAt i q y e' t := by
  obtain ⟨hcfg, hcmd, hfaults⟩ : t.cfg = s.cfg ∧ t.cmd = s.cmd ∧ t.faults = s.faults := by simpa using keeps
  exact ⟨hq, hy, by rw [hcmd]; exact r.latched, by rw [hcmd]; exact r.legal, by rw [hfaults]; exact r.unfaulted,
    by rw [hcfg]; exact r.range, by rw [hcfg]; exact r.mode, polls⟩

/-- Another phase of the same command, entered by `goto`: a poll phase has all its polls. -/
theorem RefAt.goto (r : RefAt i p x e s) (keeps : (t.cfg, t.cmd, t.faults) = (s.cfg, s.cmd, s.faults)) (ht : t.phase = p)
    (hq : q ≠ p) (hy : e'.per = y) : RefAt i q y e' (t.goto q) := by
  refine r.next (by simpa using keeps) (t.goto_phase q) hy fun poll => ?_
  have cfg : t.cfg = s.cfg := congrArg Prod.fst keeps
  have cleared : (t.goto q).work.polls = 0 := by simp [State.goto_work, poll, ht, hq]
  rw [cleared, State.goto_cfg, cfg]
  exact Config.pollLimit_pos r.range

theorem exec_of_wait (hn : i.waitNext w = some n) (hp : s.phase = w.phase) : exec i s = .next (s.waitStep w n) := by
  unfold Instr.waitNext at hn
  split at hn <;> cases hn <;>
    simp only [exec, execI2cWriteByte, execI2cWriteBytes, execI2cReadBytes, hp, Wait.phase]

theorem Wait.phase_readsStatus (w : Wait) : w.phase.readsStatus = true := by cases w <;> rfl

/-- A wait whose flag is set is over at its first poll (41_i2c R140). -/
theorem RefAt.leads_wait_passes (hn : i.waitNext w = some n) (hx : w.seen x = true) :
    RefEnv.Leads (RefAt i w.phase x) (RefAt i n x) := by
  refine .of_step fun e s r => ?_
  have hw : s.phase.readsStatus = true := r.phase ▸ w.phase_readsStatus
  have holds : w.holds (e.turn s).preadValue = true := by
    rw [RefEnv.preadValue_turn hw, r.per, Wait.holds_statusWord, hx]
  have arm : exec i (e.turn s) = .next (((e.turn s).pread .status).goto n) := by
    rw [exec_of_wait hn (s := e.turn s) r.phase, State.waitStep, if_pos holds]
  have hne : n ≠ w.phase := by
    rintro rfl
    have npoll := (waitNext_spec hn).2.2.1
    rw [w.phase_isPoll] at npoll; cases npoll
  obtain ⟨e', hs, per⟩ := r.step [.pRd .status (e.turn s).preadValue] w.phase_readsStatus arm (by simp)
  exact ⟨e', _, hs, r.goto (by simp) (by simpa using r.phase) hne per⟩

/-- A poll whose flag is not set leaves the wait, or is its last one and fails it (41_i2c R140). -/
theorem RefAt.exec_poll_fails (r : RefAt i w.phase x e s) (hn : i.waitNext w = some n) (hx : w.seen x = false) :
    exec i (e.turn s) =
      .next (if s.work.polls + 1 = s.cfg.pollLimit then (e.turn s).polled.waitFail w else (e.turn s).polled) := by
  have hw : s.phase.readsStatus = true := r.phase ▸ w.phase_readsStatus
  have fails : w.holds (e.turn s).preadValue = false := by
    rw [RefEnv.preadValue_turn hw, r.per, Wait.holds_statusWord, hx]
  rw [exec_of_wait hn (s := e.turn s) r.phase]
  rcases State.waitStep_cases (s := e.turn s) (n := n) r.phase with ⟨h, _⟩ | ⟨_, h, _⟩ | ⟨_, _, h, e⟩ | ⟨_, _, h, e⟩
  · rw [fails] at h; cases h
  · rw [RefEnv.turn_cfg, r.mode] at h; cases h
  · rw [e]; exact congrArg _ (if_pos h).symm
  · rw [e]; exact congrArg _ (if_neg h).symm

/-- A wait whose flag stays clear comes to its last poll (41_i2c R140). -/
theorem RefAt.leads_last_poll (hn : i.waitNext w = some n) (hx : w.seen x = false) :
    RefEnv.Leads (RefAt i w.phase x) (fun e s => RefAt i w.phase x e s ∧ s.work.polls + 1 = s.cfg.pollLimit) := by
  have from_left : ∀ k, RefEnv.Leads (fun e s => RefAt i w.phase x e s ∧ s.work.polls + 1 + k = s.cfg.pollLimit)
      (fun e s => RefAt i w.phase x e s ∧ s.work.polls + 1 = s.cfg.pollLimit) := by
    intro k
    induction k with
    | zero => exact .of_imp fun _ _ h => h
    | succ k ih =>
      refine .trans (.of_step fun e s ⟨r, hk⟩ => ?_) ih
      have more : s.work.polls + 1 ≠ s.cfg.pollLimit := by omega
      have arm := r.exec_poll_fails hn hx
      rw [if_neg more] at arm
      have polls : (e.turn s).polled.work.polls = s.work.polls + 1 := rfl
      have cfg : (e.turn s).polled.cfg = s.cfg := by simp [State.polled]
      obtain ⟨e', hs, per⟩ := r.step _ w.phase_readsStatus arm (State.polled_hist _)
      exact ⟨e', _, hs, r.next (by simp [State.polled]) (by simpa [State.polled] using r.phase) per
        fun _ => by rw [polls, cfg]; omega, by rw [polls, cfg]; omega⟩
  intro e s r
  have left := r.polls w.phase_isPoll
  exact from_left (s.cfg.pollLimit - s.work.polls - 1) e s ⟨r, by omega⟩

/-- A wait before the START, whose flag stays clear, ends the command with its error (41_i2c R140). -/
theorem RefAt.leads_wait_completes (hn : i.waitNext w = some n) (hx : w.seen x = false) (ha : w.aborts = false) :
    RefEnv.Leads (RefAt i w.phase x) (RefEnded w.err.code x.wire) := by
  refine .trans (RefAt.leads_last_poll hn hx) (.of_step fun e s ⟨r, last⟩ => ?_)
  have arm := r.exec_poll_fails hn hx
  rw [if_pos last, State.waitFail, if_neg (by simp [ha])] at arm
  obtain ⟨e', hs, per⟩ := r.step [.pRd .status (e.turn s).preadValue, .complete w.err.code] w.phase_readsStatus arm
    (List.append_assoc _ _ _)
  exact ⟨e', _, hs, rfl, rfl, congrArg RefPer.wire per⟩

/-- A wait after the START, whose flag stays clear, aborts with its error (41_i2c R140). -/
theorem RefAt.leads_wait_aborts (hn : i.waitNext w = some n) (hx : w.seen x = false) (ha : w.aborts = true) :
    RefEnv.Leads (RefAt i w.phase x) (RefAborts i .i2AbStop x w.err.code) := by
  refine .trans (RefAt.leads_last_poll hn hx) (.of_step fun e s ⟨r, last⟩ => ?_)
  have arm := r.exec_poll_fails hn hx
  rw [if_pos last, State.waitFail, if_pos ha] at arm
  obtain ⟨e', hs, per⟩ := r.step _ w.phase_readsStatus arm (State.polled_hist _)
  exact ⟨e', _, hs, r.next (by simp [State.polled]) rfl per nofun, rfl⟩

end

/-! The phases of `I2C_WRITE_BYTE` that are no waits (41_i2c R142, R145). -/

section
variable {addr : Addr7} {data : Byte} {x : RefPer}

theorem RefAt.leads_decode :
    RefEnv.Leads (RefAt (.i2cWriteByte addr data) .decode x) (RefAt (.i2cWriteByte addr data) .i2IdlePoll x) := by
  refine .of_step fun e s r => ?_
  have arm : exec (.i2cWriteByte addr data) (e.turn s) = .next ((e.turn s).goto .i2IdlePoll) := exec_of_decode _ r.phase
  obtain ⟨e', hs, per⟩ := r.step [] rfl arm (by simp)
  exact ⟨e', _, hs, r.goto rfl r.phase (by decide) per⟩

theorem RefAt.leads_start :
    RefEnv.Leads (RefAt (.i2cWriteByte addr data) .i2Start x)
      (RefAt (.i2cWriteByte addr data) .i2TxPoll (x.writeCtrl (ctrlWord addr 1 false false))) := by
  refine .of_step fun e s r => ?_
  have arm : exec (.i2cWriteByte addr data) (e.turn s) =
      .next (((e.turn s).pwrite .ctrl (ctrlWord addr 1 false false)).goto .i2TxPoll) := by
    simp [exec, execI2cWriteByte, r.phase]
  obtain ⟨e', hs, per⟩ := r.step [.pWr .ctrl (ctrlWord addr 1 false false)] rfl arm (by simp)
  exact ⟨e', _, hs, r.goto rfl r.phase (by decide) per⟩

theorem RefAt.leads_txWrite :
    RefEnv.Leads (RefAt (.i2cWriteByte addr data) .i2TxWrite x)
      (RefAt (.i2cWriteByte addr data) .i2TcPoll (x.writeTxdr (txdrWord data))) := by
  refine .of_step fun e s r => ?_
  have arm : exec (.i2cWriteByte addr data) (e.turn s) =
      .next (((e.turn s).pwrite .txdr (txdrWord data)).goto .i2TcPoll) := by
    simp [exec, execI2cWriteByte, r.phase]
  obtain ⟨e', hs, per⟩ := r.step [.pWr .txdr (txdrWord data)] rfl arm (by simp)
  exact ⟨e', _, hs, r.goto rfl r.phase (by decide) per⟩

theorem RefAt.leads_stop :
    RefEnv.Leads (RefAt (.i2cWriteByte addr data) .i2Stop x) (RefAt (.i2cWriteByte addr data) .i2StopfPoll x.stop) := by
  refine .of_step fun e s r => ?_
  have arm : exec (.i2cWriteByte addr data) (e.turn s) = .next ((e.turn s).setStop.goto .i2StopfPoll) := by
    simp [exec, execI2cWriteByte, r.phase]
  obtain ⟨e', hs, per⟩ := r.step [.pStop] rfl arm (by simp)
  exact ⟨e', _, hs, r.goto rfl r.phase (by decide) per⟩

theorem RefAt.leads_stopfClear :
    RefEnv.Leads (RefAt (.i2cWriteByte addr data) .i2StopfClear x) (RefEnded 0 x.wire) := by
  refine .of_step fun e s r => ?_
  have arm : exec (.i2cWriteByte addr data) (e.turn s) = .next (e.turn s).stopfClear := by
    simp [exec, execI2cWriteByte, r.phase]
  obtain ⟨e', hs, per⟩ := r.step [.pWr .clear clearWord, .complete 0] rfl arm (List.append_assoc _ _ _)
  exact ⟨e', _, hs, rfl, rfl, (congrArg RefPer.wire per).trans (x.wire_writeClear clearWord)⟩

theorem RefAborts.leads_abStop {c : Code} :
    RefEnv.Leads (RefAborts (.i2cWriteByte addr data) .i2AbStop x c)
      (RefAborts (.i2cWriteByte addr data) .i2AbPoll x.stop c) := by
  refine .of_step fun e s ⟨r, err⟩ => ?_
  have arm : exec (.i2cWriteByte addr data) (e.turn s) = .next (e.turn s).abortStop := by
    simp [exec, execI2cWriteByte, r.phase]
  obtain ⟨e', hs, per⟩ := r.step _ rfl arm (State.setStop_hist _)
  exact ⟨e', _, hs, r.next rfl rfl per fun _ => Config.pollLimit_pos r.range, err⟩

/-- The abort's first poll sees the flag of its STOP, which the reference sets at once (20_memory R82). -/
theorem RefAborts.leads_abPoll {c : Code} :
    RefEnv.Leads (RefAborts (.i2cWriteByte addr data) .i2AbPoll x.stop c)
      (RefAborts (.i2cWriteByte addr data) .i2AbClear x.stop c) := by
  refine .of_step fun e s ⟨r, err⟩ => ?_
  have flag : StatusWord.stopf (e.turn s).preadValue = true := by
    rw [RefEnv.preadValue_turn (by rw [r.phase]; rfl), r.per]
    exact Wait.holds_statusWord .stopf x.stop
  have arm : exec (.i2cWriteByte addr data) (e.turn s) = .next { (e.turn s).pread .status with phase := .i2AbClear } := by
    simp [exec, execI2cWriteByte, r.phase, State.abortPoll, flag]
  obtain ⟨e', hs, per⟩ := r.step _ rfl arm (State.pread_hist _ _)
  exact ⟨e', _, hs, r.next (by simp) rfl per nofun, by simpa using err⟩

theorem RefAborts.leads_abClear {c : Code} :
    RefEnv.Leads (RefAborts (.i2cWriteByte addr data) .i2AbClear x c) (RefEnded c x.wire) := by
  refine .of_step fun e s ⟨r, err⟩ => ?_
  have arm : exec (.i2cWriteByte addr data) (e.turn s) = .next (e.turn s).abortClear := by
    simp [exec, execI2cWriteByte, r.phase]
  obtain ⟨e', hs, per⟩ := r.step [.pWr .clear clearWord, .complete s.work.err] rfl arm (List.append_assoc _ _ _)
  exact ⟨e', _, hs, rfl, err, (congrArg RefPer.wire per).trans (x.wire_writeClear clearWord)⟩

/-! The three outcomes, from `DECODE`. -/

/-- On a wedged bus WaitIdle never passes (20_memory R77). -/
theorem RefAt.leads_busBusyTimeout {present : Bool} {sb : List Byte} :
    RefEnv.Leads (RefAt (.i2cWriteByte addr data) .decode (RefPer.reset present true sb)) (RefEnded 1 []) :=
  .trans RefAt.leads_decode (RefAt.leads_wait_completes (w := .idle) rfl rfl rfl)

/-- On a free bus the command comes to the ready wait after its START. -/
theorem RefAt.leads_started {present : Bool} {sb : List Byte} :
    RefEnv.Leads (RefAt (.i2cWriteByte addr data) .decode (RefPer.reset present false sb))
      (RefAt (.i2cWriteByte addr data) .i2TxPoll (RefPer.started addr present sb)) := by
  have start := RefAt.leads_start (addr := addr) (data := data) (x := RefPer.reset present false sb)
  rw [RefPer.writeCtrl_reset] at start
  exact .trans RefAt.leads_decode (.trans (RefAt.leads_wait_passes (w := .idle) rfl rfl) start)

/-- An absent slave never gets ready, and the ready wait aborts (20_memory R78). -/
theorem RefAt.leads_noAck {sb : List Byte} :
    RefEnv.Leads (RefAt (.i2cWriteByte addr data) .decode (RefPer.reset false false sb))
      (RefEnded 2 [.s, .a (addr ++ 0#1), .p]) :=
  .trans RefAt.leads_started <| .trans (RefAt.leads_wait_aborts (w := .tx) rfl rfl rfl) <|
    .trans RefAborts.leads_abStop <| .trans RefAborts.leads_abPoll RefAborts.leads_abClear

/-- A present slave takes the byte, and every wait passes. -/
theorem RefAt.leads_ok {sb : List Byte} :
    RefEnv.Leads (RefAt (.i2cWriteByte addr data) .decode (RefPer.reset true false sb))
      (RefEnded 0 [.s, .a (addr ++ 0#1), .d data, .p]) := by
  have byte := RefAt.leads_txWrite (addr := addr) (data := data) (x := RefPer.started addr true sb)
  rw [RefPer.writeTxdr_started] at byte
  exact .trans RefAt.leads_started <| .trans (RefAt.leads_wait_passes (w := .tx) rfl rfl) <| .trans byte <|
    .trans (RefAt.leads_wait_passes (w := .tc) rfl rfl) <| .trans RefAt.leads_stop <|
    .trans (RefAt.leads_wait_passes (w := .stopf) rfl rfl) RefAt.leads_stopfClear

end

/-- Settles O40: the reference run, phase by phase, in each of the three environments. -/
theorem referenceWriteByte : Obligations.ReferenceWriteByte := by
  intro addr data s e present wedged sb ⟨hp, latched, legal⟩ unfaulted range mode per
  have r : RefAt (.i2cWriteByte addr data) .decode (RefPer.reset present wedged sb) e s :=
    ⟨hp, per, latched, legal, unfaulted, range, mode, nofun⟩
  cases wedged with
  | true => exact RefAt.leads_busBusyTimeout e s r
  | false =>
    cases present with
    | true => exact RefAt.leads_ok e s r
    | false => exact RefAt.leads_noAck e s r

end Sys2Proof.Machine
end

/-! ### The descriptor and the decoder (O1 to O5) -/

section
namespace Sys2Proof

/-! A descriptor and its fields (30_encoding R90). -/

theorem toNat_extractLsb'_eq {w : Nat} (x : BitVec w) (k n : Nat) : (x.extractLsb' k n).toNat = x.toNat / 2 ^ k % 2 ^ n := by
  rw [BitVec.extractLsb'_toNat, Nat.shiftRight_eq_div_pow]

theorem toNat_append_eq_add {m n : Nat} (x : BitVec m) (y : BitVec n) : (x ++ y).toNat = x.toNat * 2 ^ n + y.toNat := by
  rw [BitVec.toNat_append, ← Nat.shiftLeft_add_eq_or_of_lt y.isLt, Nat.shiftLeft_eq]

/-- The seven fields cover the descriptor. -/
theorem Desc.ext_iff {d e : Desc} : d = e ↔ Desc.op d = Desc.op e ∧ Desc.rsvA d = Desc.rsvA e ∧ Desc.rsvB d = Desc.rsvB e ∧
    Desc.addr d = Desc.addr e ∧ Desc.data d = Desc.data e ∧ Desc.count d = Desc.count e ∧ Desc.arg d = Desc.arg e := by
  refine ⟨fun h => by simp [h], fun h => BitVec.eq_of_toNat_eq ?_⟩
  simp only [← BitVec.toNat_inj, Desc.op, Desc.rsvA, Desc.rsvB, Desc.addr, Desc.data, Desc.count, Desc.arg,
    toNat_extractLsb'_eq] at h
  omega

@[simp] theorem Desc.fields_and (d e : Desc) : Desc.op (d &&& e) = Desc.op d &&& Desc.op e ∧
    Desc.rsvA (d &&& e) = Desc.rsvA d &&& Desc.rsvA e ∧ Desc.rsvB (d &&& e) = Desc.rsvB d &&& Desc.rsvB e ∧
    Desc.addr (d &&& e) = Desc.addr d &&& Desc.addr e ∧ Desc.data (d &&& e) = Desc.data d &&& Desc.data e ∧
    Desc.count (d &&& e) = Desc.count d &&& Desc.count e ∧ Desc.arg (d &&& e) = Desc.arg d &&& Desc.arg e := by
  refine ⟨?_, ?_, ?_, ?_, ?_, ?_, ?_⟩ <;> exact BitVec.extractLsb'_and

section
variable (op : BitVec 4) (addr : Addr7) (data count : Byte) (arg : Word)

/-- A descriptor is the sum of its shifted fields (30_encoding R102). -/
theorem Desc.toNat_make : (Desc.make op addr data count arg).toNat =
    op.toNat + addr.toNat * 2 ^ 4 + data.toNat * 2 ^ 12 + count.toNat * 2 ^ 20 + arg.toNat * 2 ^ 32 := by
  simp only [Desc.make, toNat_append_eq_add, BitVec.ofNat_eq_ofNat, BitVec.toNat_ofNat]
  omega

@[simp] theorem Desc.fields_make : Desc.op (Desc.make op addr data count arg) = op ∧
    Desc.rsvA (Desc.make op addr data count arg) = 0 ∧ Desc.rsvB (Desc.make op addr data count arg) = 0 ∧
    Desc.addr (Desc.make op addr data count arg) = addr ∧ Desc.data (Desc.make op addr data count arg) = data ∧
    Desc.count (Desc.make op addr data count arg) = count ∧ Desc.arg (Desc.make op addr data count arg) = arg := by
  simp only [← BitVec.toNat_inj, Desc.op, Desc.rsvA, Desc.rsvB, Desc.addr, Desc.data, Desc.count, Desc.arg,
    toNat_extractLsb'_eq, Desc.toNat_make, BitVec.ofNat_eq_ofNat, BitVec.toNat_ofNat]
  omega

end

/-! The rows of the match and mask table, field by field (30_encoding R92, R93). -/

/-- Does the command have an operand in `ADDR`? -/
def Mnemonic.usesAddr : Mnemonic → Bool
  | .i2cWriteByte => true
  | .i2cWriteBytes => true
  | .i2cReadBytes => true
  | _ => false

/-- Does the command have an operand in `DATA`? -/
def Mnemonic.usesData : Mnemonic → Bool
  | .i2cWriteByte => true
  | .i2cReadBytes => true
  | _ => false

/-- Does the command have an operand in `COUNT`? -/
def Mnemonic.usesCount : Mnemonic → Bool
  | .i2cWriteBytes => true
  | .i2cReadBytes => true
  | _ => false

/-- Does the command have an operand in `ARG`? -/
def Mnemonic.usesArg : Mnemonic → Bool
  | .initClock => false
  | .clockNow => false
  | .i2cWriteByte => false
  | _ => true

theorem Mnemonic.matchWord_eq_make (m : Mnemonic) : m.matchWord = Desc.make m.opcode 0 0 0 0 := by cases m <;> rfl

/-- A row's mask has all of `OP` and of the reserved bits, and all of each field that is no operand. -/
theorem Mnemonic.fields_maskWord (m : Mnemonic) : Desc.op m.maskWord = BitVec.allOnes 4 ∧
    Desc.rsvA m.maskWord = BitVec.allOnes 1 ∧ Desc.rsvB m.maskWord = BitVec.allOnes 4 ∧
    Desc.addr m.maskWord = (if m.usesAddr then 0 else BitVec.allOnes 7) ∧
    Desc.data m.maskWord = (if m.usesData then 0 else BitVec.allOnes 8) ∧
    Desc.count m.maskWord = (if m.usesCount then 0 else BitVec.allOnes 8) ∧
    Desc.arg m.maskWord = (if m.usesArg then 0 else BitVec.allOnes 32) := by
  cases m <;> decide

/-- A field under the mask of a row: only one that is no operand has to be zero. -/
theorem and_mask_eq_zero_iff {w : Nat} (x : BitVec w) (used : Bool) :
    x &&& (if used then 0 else BitVec.allOnes w) = 0 ↔ (used = false → x = 0) := by
  cases used <;> simp

/-- A row selects its opcode with zeros in the reserved bits and in the fields that are no operand. -/
theorem Mnemonic.selects_iff_fields {m : Mnemonic} {d : Desc} : m.selects d = true ↔
    Desc.op d = m.opcode ∧ Desc.rsvA d = 0 ∧ Desc.rsvB d = 0 ∧ (m.usesAddr = false → Desc.addr d = 0) ∧
    (m.usesData = false → Desc.data d = 0) ∧ (m.usesCount = false → Desc.count d = 0) ∧
    (m.usesArg = false → Desc.arg d = 0) := by
  rw [Mnemonic.selects_iff, Mnemonic.matchWord_eq_make, Desc.ext_iff]
  simp only [Desc.fields_and, Desc.fields_make, m.fields_maskWord, BitVec.and_allOnes, and_mask_eq_zero_iff]

theorem Mnemonic.eq_of_selects {m n : Mnemonic} {d : Desc} (hm : m.selects d = true) (hn : n.selects d = true) : m = n :=
  Mnemonic.opcode_injective ((Mnemonic.op_of_selects hm).symm.trans (Mnemonic.op_of_selects hn))

theorem Mnemonic.mnemonic_instr (m : Mnemonic) (d : Desc) : (m.instr d).mnemonic = m := by cases m <;> rfl

/-! The decoder, row by row (30_encoding R93). -/

/-- The decoder reads a descriptor by the row that selects it. -/
theorem decode_of_selects {m : Mnemonic} {d : Desc} (h : m.selects d = true) : decode d = .ok (m.instr d) := by
  unfold decode
  cases e : Mnemonic.all.find? (fun m => m.selects d) with
  | none => exact absurd h (List.find?_eq_none.mp e m (by cases m <;> decide))
  | some n => rw [Mnemonic.eq_of_selects h (List.find?_some (p := fun m => Mnemonic.selects m d) e)]

theorem decode_eq_ok_iff {d : Desc} {i : Instr} : decode d = .ok i ↔ ∃ m : Mnemonic, m.selects d = true ∧ m.instr d = i :=
  ⟨fun h => let ⟨m, hm, hi⟩ := decode_ok h; ⟨m, hm, hi.symm⟩, fun ⟨_, hm, hi⟩ => hi ▸ decode_of_selects hm⟩

/-- A descriptor no row selects is illegal (30_encoding R94). -/
theorem decode_of_not_selects {d : Desc} (h : ∀ m : Mnemonic, ¬ m.selects d = true) : decode d = .error (illegalReason d) := by
  rw [decode, List.find?_eq_none.mpr fun m _ => h m]

/-- The descriptor of a command has the command's row (30_encoding R93). -/
theorem Instr.selects_encode (i : Instr) : i.mnemonic.selects (encode i) = true := by
  rw [Mnemonic.selects_iff]
  cases i with
  | initClock => exact Laws.RowMatch.initClock
  | clockNow => exact Laws.RowMatch.clockNow
  | delayUs n => exact Laws.RowMatch.delayUs n
  | delayMs n => exact Laws.RowMatch.delayMs n
  | i2cWriteByte addr data => exact Laws.RowMatch.i2cWriteByte addr data
  | i2cWriteBytes addr count buf => exact Laws.RowMatch.i2cWriteBytes addr count buf
  | i2cReadBytes addr reg count buf => exact Laws.RowMatch.i2cReadBytes addr reg count buf
  | measure timeout => exact Laws.RowMatch.measure timeout

/-- The operands of a command are the fields its descriptor was made of. -/
theorem Instr.instr_encode (i : Instr) : i.mnemonic.instr (encode i) = i := by
  cases i <;> simp [Instr.mnemonic, Mnemonic.instr, encode]

/-- Settles O1: the descriptor of a command has the command's row, whose fields are its operands. -/
theorem decodeEncode : Obligations.DecodeEncode := fun i => by
  rw [decode_of_selects i.selects_encode, i.instr_encode]

/-- The descriptor of a row's command keeps the fields that are operands. -/
theorem Mnemonic.encode_instr (m : Mnemonic) (d : Desc) : encode (m.instr d) = Desc.make m.opcode
    (if m.usesAddr then Desc.addr d else 0) (if m.usesData then Desc.data d else 0) (if m.usesCount then Desc.count d else 0)
    (if m.usesArg then Desc.arg d else 0) := by
  cases m <;> rfl

/-- Settles O2: the fields of a selected descriptor that are no operands are zero, as those of the encoded one are. -/
theorem encodeDecode : Obligations.EncodeDecode := fun d i h => by
  obtain ⟨m, selected, rfl⟩ := decode_eq_ok_iff.mp h
  have operand : ∀ {w : Nat} {x : BitVec w} {used : Bool}, (used = false → x = 0) → (if used then x else 0) = x := by
    intro w x used hx
    cases used with
    | true => rfl
    | false => exact (hx rfl).symm
  obtain ⟨op, rsvA, rsvB, addr, data, count, arg⟩ := Mnemonic.selects_iff_fields.mp selected
  rw [Mnemonic.encode_instr, operand addr, operand data, operand count, operand arg, Desc.ext_iff]
  simp [op, rsvA, rsvB]

/-- Settles O3: the decoder reads a descriptor by the row that selects it, and the opcode tells the row. -/
theorem rowsSelect : Obligations.RowsSelect := by
  refine ⟨fun d m => ?_, fun d m n hm hn => Mnemonic.eq_of_selects (Mnemonic.selects_iff.mpr hm) (Mnemonic.selects_iff.mpr hn)⟩
  rw [← Mnemonic.selects_iff]
  constructor
  · rintro ⟨i, decoded, rfl⟩
    obtain ⟨n, selected, rfl⟩ := decode_eq_ok_iff.mp decoded
    rwa [Mnemonic.mnemonic_instr]
  · exact fun selected => ⟨m.instr d, decode_of_selects selected, m.mnemonic_instr d⟩

/-- Settles O4: each word is the descriptor of its command. -/
theorem wordsDecode : Obligations.WordsDecode :=
  ⟨decodeEncode .initClock, decodeEncode .clockNow, decodeEncode (.delayUs 10), decodeEncode (.delayMs 1000),
    decodeEncode (.i2cWriteByte 0x3C 0xAE), decodeEncode (.i2cWriteBytes 0x3C 2 0x20000000),
    decodeEncode (.i2cReadBytes 0x68 0x75 2 0x20000100), decodeEncode (.measure 400000)⟩

/-! The assembler (30_encoding R102). -/

section
variable {v : Nat}

@[simp] theorem AsmLine.addrOk_iff : AsmLine.addrOk v = true ↔ v ≤ 127 := decide_eq_true_iff
@[simp] theorem AsmLine.byteOk_iff : AsmLine.byteOk v = true ↔ v ≤ 255 := decide_eq_true_iff
@[simp] theorem AsmLine.argOk_iff : AsmLine.argOk v = true ↔ v ≤ 0xFFFFFFFF := decide_eq_true_iff

end

theorem AsmLine.assemble_eq_none_iff {l : AsmLine} : l.assemble = none ↔ ¬ l.wellFormed = true := by
  simp [AsmLine.assemble]

/-- A line is assembled in range only. -/
theorem AsmLine.wellFormed_of_assemble {l : AsmLine} {i : Instr} (h : l.assemble = some i) : l.wellFormed = true := by
  by_contra hl
  rw [AsmLine.assemble_eq_none_iff.mpr hl] at h
  cases h

/-- Settles O5: a line is refused for its ranges alone; in range, a number is its field, and the descriptor the sum of fields. -/
theorem assembleFits : Obligations.AssembleFits := by
  refine ⟨fun l => ?_, fun l i h => ?_⟩
  · rw [AsmLine.assemble_eq_none_iff]
    cases l with
    | initClock => simp [AsmLine.wellFormed]
    | clockNow => simp [AsmLine.wellFormed]
    | _ =>
      simp only [AsmLine.wellFormed, Bool.and_eq_true, AsmLine.addrOk_iff, AsmLine.byteOk_iff, AsmLine.argOk_iff]
      omega
  · have hl := AsmLine.wellFormed_of_assemble h
    unfold AsmLine.assemble at h
    rw [if_pos hl, Option.some.injEq] at h
    subst h
    cases l with
    | initClock => rfl
    | clockNow => rfl
    | _ =>
      simp only [AsmLine.wellFormed, Bool.and_eq_true, AsmLine.addrOk_iff, AsmLine.byteOk_iff, AsmLine.argOk_iff] at hl
      simp only [encode, Desc.toNat_make, BitVec.ofNat_eq_ofNat, BitVec.toNat_ofNat]
      omega

end Sys2Proof
end

/-! ### SEQ's turn at `DECODE` (O6, O7) -/

section
namespace Sys2Proof

/-- An opcode is reserved or that of a command (30_encoding R92). -/
theorem opcode_cases (o : BitVec 4) : (o = 0 ∨ 9 ≤ o.toNat) ∨ ∃ m : Mnemonic, o = m.opcode := by
  have listed : ∀ o : BitVec 4, (o = 0 ∨ 9 ≤ o.toNat) ∨ ∃ m ∈ Mnemonic.all, o = m.opcode := by decide
  exact (listed o).imp_right fun ⟨m, _, h⟩ => ⟨m, h⟩

theorem Mnemonic.opcode_not_reserved (m : Mnemonic) : ¬ (m.opcode = 0 ∨ 9 ≤ m.opcode.toNat) := by cases m <;> decide

theorem Mnemonic.not_selects_iff {m : Mnemonic} {d : Desc} : ¬ m.selects d = true ↔ d &&& m.maskWord ≠ m.matchWord :=
  Mnemonic.selects_iff.not

/-- A reserved opcode is in no row. -/
theorem not_selects_of_reserved {d : Desc} (h : Desc.op d = 0 ∨ 9 ≤ (Desc.op d).toNat) (m : Mnemonic) : ¬ m.selects d = true :=
  fun hm => m.opcode_not_reserved (Mnemonic.op_of_selects hm ▸ h)

/-- Only the row of its opcode can select a descriptor. -/
theorem forall_not_selects_iff {m : Mnemonic} {d : Desc} (h : Desc.op d = m.opcode) :
    (∀ n : Mnemonic, ¬ n.selects d = true) ↔ ¬ m.selects d = true := by
  refine ⟨fun all => all m, fun hm n hn => hm ?_⟩
  rwa [Mnemonic.opcode_injective (h.symm.trans (Mnemonic.op_of_selects hn))]

end Sys2Proof

namespace Sys2Proof.Machine

/-- At `DECODE` an unfaulted SEQ completes a descriptor that no row selects (30_encoding R94, R104). -/
theorem State.seqStep_of_illegal {s : State} (hp : s.phase = .decode) (hf : s.faults.clockReinit = false)
    (h : ∀ m : Mnemonic, s.cmd.desc &&& m.maskWord ≠ m.matchWord) : s.seqStep = .next (s.complete 6) := by
  have illegal : decode s.cmd.desc = .error (illegalReason s.cmd.desc) :=
    decode_of_not_selects fun m => Mnemonic.not_selects_iff.mpr (h m)
  simp [State.seqStep, State.seqFaulted, hf, hp, State.decodeStep, illegal, Status.code]

/-- Settles O6: a reserved opcode is in no row, and any other descriptor is held to the one row of its opcode, field by field. -/
theorem illegalDescriptor : Obligations.IllegalDescriptor := by
  refine ⟨fun d => ?_, fun s hp hf h => State.seqStep_of_illegal hp hf h, fun m => by cases m <;> decide⟩
  simp only [← Mnemonic.not_selects_iff]
  rcases opcode_cases (Desc.op d) with h | ⟨m, h⟩
  · exact iff_of_true (not_selects_of_reserved h) (or_assoc.mp (.inl h))
  · rw [forall_not_selects_iff h, Mnemonic.selects_iff_fields, h]
    cases m <;> simp [-not_and, not_and_or, Mnemonic.opcode, Mnemonic.usesAddr, Mnemonic.usesData, Mnemonic.usesCount,
      Mnemonic.usesArg]

/-- `goto` at `DECODE` to a phase that polls. -/
theorem State.goto_poll_of_decode {s : State} {p : Phase} (hs : s.phase = .decode) (hp : p.isPoll = true) :
    s.goto p = { s with work.polls := 0, phase := p } := by
  have entered : p ≠ .decode := by rintro rfl; cases hp
  simp [State.goto, hs, hp, entered]

/-- Settles O7: SEQ's turn at `DECODE` is exec, which enters the command's first phase. -/
theorem decodeFirstPhase : Obligations.DecodeFirstPhase := by
  refine fun s hp hf => ⟨State.seqStep_of_illegal hp hf, fun i decoded => ?_⟩
  have poll : s.goto .i2IdlePoll = { s with work.polls := 0, phase := .i2IdlePoll } := State.goto_poll_of_decode hp rfl
  rw [State.seqStep_of_decode hf hp decoded, exec_of_decode i hp]
  cases i with
  | i2cWriteByte addr data => exact congrArg _ poll
  | i2cWriteBytes addr count buf => exact congrArg _ poll
  | i2cReadBytes addr reg count buf => exact congrArg _ poll
  | _ => rfl

end Sys2Proof.Machine
end

/-! ### The words SEQ writes to `CTRL` (O24) -/

section
namespace Sys2Proof.Machine

/-! The fields of `CTRL_WORD` (30_encoding R97). -/

section
variable (addr : Addr7) (nbytes : Byte) (rdwrn autoend : Bool)

/-- `SADD` is the address; bit 0 and the bits above `AUTOEND` are zero. -/
theorem ctrlWord_fields : (ctrlWord addr nbytes rdwrn autoend).extractLsb' 0 1 = 0 ∧
    (ctrlWord addr nbytes rdwrn autoend).extractLsb' 1 7 = addr ∧
    (ctrlWord addr nbytes rdwrn autoend).extractLsb' 20 12 = 0 := by
  refine ⟨?_, ?_, ?_⟩ <;> ext k hk <;> rw [BitVec.getElem_extractLsb', ctrlWord_getLsbD _ _ _ _ (by omega)] <;>
    interval_cases k <;> simp

/-- `RD_WRN`, `START`, `STOP` and `AUTOEND`. -/
theorem ctrlWord_flags : (ctrlWord addr nbytes rdwrn autoend).getLsbD 16 = rdwrn ∧
    (ctrlWord addr nbytes rdwrn autoend).getLsbD 17 = true ∧ (ctrlWord addr nbytes rdwrn autoend).getLsbD 18 = false ∧
    (ctrlWord addr nbytes rdwrn autoend).getLsbD 19 = autoend := by
  refine ⟨?_, ?_, ?_, ?_⟩ <;> rw [ctrlWord_getLsbD _ _ _ _ (by omega)] <;> simp

/-- The flags of a word are a constant beside the count and the address. -/
theorem ctrlWord_eq {flags : Word} (h : bitWord autoend <<< 19 ||| bitWord true <<< 17 ||| bitWord rdwrn <<< 16 = flags) :
    ctrlWord addr nbytes rdwrn autoend = flags ||| nbytes.setWidth 32 <<< 8 ||| addr.setWidth 32 <<< 1 :=
  h ▸ rfl

end

/-! The `CTRL` writes in a history. -/

/-- The word of a whole-word write of `CTRL`. -/
def Event.ctrlWrite? : Event → Option Word
  | .pWr .ctrl v => some v
  | _ => none

/-- The words written to `CTRL`, in order. -/
def ctrlWrites (h : List Event) : List Word := h.filterMap Event.ctrlWrite?

@[simp] theorem ctrlWrites_append (h k : List Event) : ctrlWrites (h ++ k) = ctrlWrites h ++ ctrlWrites k :=
  List.filterMap_append

theorem mem_ctrlWrites {h : List Event} {v : Word} (hv : .pWr .ctrl v ∈ h) : v ∈ ctrlWrites h :=
  List.mem_filterMap.mpr ⟨_, hv, rfl⟩

/-- From `s` to `t` exactly the words `ws` were written to `CTRL`. -/
def State.WritesCtrl (ws : List Word) (s t : State) : Prop := ctrlWrites t.hist = ctrlWrites s.hist ++ ws

section
variable {s t u : State} {e : Event} {ws : List Word} {w : Word}

theorem State.WritesCtrl.nothing (h : t.hist = s.hist) : State.WritesCtrl [] s t := by simp [State.WritesCtrl, h]

theorem State.WritesCtrl.of_event (h : t.hist = s.hist ++ [e]) (he : e.ctrlWrite? = none := by rfl) :
    State.WritesCtrl [] s t := by
  simp [State.WritesCtrl, h, ctrlWrites, he]

/-- Working registers and `PHASE` are free. -/
theorem State.WritesCtrl.moved (h : State.WritesCtrl ws s u) (x : Work) (p : Phase) :
    State.WritesCtrl ws s { u with work := x, phase := p } := h

theorem State.WritesCtrl.goto (h : State.WritesCtrl ws s u) (p : Phase) : State.WritesCtrl ws s (u.goto p) := by
  rwa [State.WritesCtrl, State.goto_hist]

theorem State.WritesCtrl.complete (h : State.WritesCtrl ws s u) (c : Code) : State.WritesCtrl ws s (u.complete c) := by
  rw [State.WritesCtrl, State.complete_hist, ctrlWrites_append, h]; simp [ctrlWrites, Event.ctrlWrite?]

theorem State.waitFail_writesCtrl (h : State.WritesCtrl ws s u) (x : Wait) : State.WritesCtrl ws s (u.waitFail x) := by
  unfold State.waitFail
  split
  · exact h
  · exact h.complete _

theorem State.pread_writesCtrl (r : PReg) (s : State) : State.WritesCtrl [] s (s.pread r) := .of_event (s.pread_hist r)

theorem State.polled_writesCtrl (s : State) : State.WritesCtrl [] s s.polled := .of_event s.polled_hist

theorem State.setStop_writesCtrl (s : State) : State.WritesCtrl [] s s.setStop := .of_event s.setStop_hist

theorem State.pwrite_ctrl_writesCtrl (w : Word) (s : State) : State.WritesCtrl [w] s (s.pwrite .ctrl w) := by
  simp [State.WritesCtrl, ctrlWrites, Event.ctrlWrite?]

theorem State.pwrite_txdr_writesCtrl (w : Word) (s : State) : State.WritesCtrl [] s (s.pwrite .txdr w) :=
  .of_event (s.pwrite_hist _ _)

theorem State.pwrite_clear_writesCtrl (w : Word) (s : State) : State.WritesCtrl [] s (s.pwrite .clear w) :=
  .of_event (s.pwrite_hist _ _)

theorem State.memWrite_writesCtrl (a : Word) (v : Byte) (s : State) : State.WritesCtrl [] s (s.memWrite a v) :=
  .of_event (s.memWrite_hist a v)

theorem State.waitStep_writesCtrl {x : Wait} {n : Phase} (hp : s.phase = x.phase) : State.WritesCtrl [] s (s.waitStep x n) := by
  rcases State.waitStep_cases (n := n) hp with ⟨_, h⟩ | ⟨_, _, h⟩ | ⟨_, _, _, h⟩ | ⟨_, _, _, h⟩ <;> rw [h]
  · exact (s.pread_writesCtrl _).goto n
  · exact s.pread_writesCtrl _
  · exact State.waitFail_writesCtrl s.polled_writesCtrl x
  · exact s.polled_writesCtrl

theorem State.abortPoll_writesCtrl (s : State) : State.WritesCtrl [] s s.abortPoll := by
  rcases s.abortPoll_cases with ⟨_, h⟩ | ⟨_, _, h⟩ | ⟨_, _, h⟩ <;> rw [h]
  · exact s.pread_writesCtrl .status
  · exact s.polled_writesCtrl
  · exact s.polled_writesCtrl

theorem State.txFetch_writesCtrl {buf : Word} (h : s.txFetch buf = .next t) : State.WritesCtrl [] s t := by
  obtain ⟨_, rfl⟩ := State.txFetch_next h
  exact .of_event (s.memRead_hist _)

theorem State.rxStore_writesCtrl {count : Byte} {buf : Word} (h : s.rxStore count buf = .next t) :
    State.WritesCtrl [] s t := by
  obtain ⟨_, rfl⟩ := State.rxStore_next h
  exact ((s.memWrite_writesCtrl _ _).moved _ _).goto _

end

/-- The words command `i` writes to `CTRL` in its step at phase `p` (41_i2c R145, R147, R150). -/
def ctrlWordsAt (i : Instr) (p : Phase) : List Word :=
  match i, p with
  | .i2cWriteByte addr _, .i2Start => [ctrlWord addr 1 false false]
  | .i2cWriteBytes addr count _, .i2Start => [ctrlWord addr count false false]
  | .i2cReadBytes addr _ _ _, .i2Start => [ctrlWord addr 1 false false]
  | .i2cReadBytes addr _ count _, .i2Restart => [ctrlWord addr count true true]
  | _, _ => []

/-! What one SEQ step of each I2C command writes to `CTRL`, phase by phase in the order of the meaning's arms. -/

section
variable {s t : State}

theorem execI2cWriteByte_writesCtrl {a : Addr7} {b : Byte} (h : execI2cWriteByte a b s = .next t) :
    State.WritesCtrl (ctrlWordsAt (.i2cWriteByte a b) s.phase) s t := by
  unfold execI2cWriteByte at h
  split at h <;> cases h <;> rename_i hp <;> rw [hp]
  · exact .nothing (s.goto_hist _)
  · exact State.waitStep_writesCtrl hp
  · exact (s.pwrite_ctrl_writesCtrl _).goto _
  · exact State.waitStep_writesCtrl hp
  · exact (s.pwrite_txdr_writesCtrl _).goto _
  · exact State.waitStep_writesCtrl hp
  · exact s.setStop_writesCtrl.goto _
  · exact State.waitStep_writesCtrl hp
  · exact (s.pwrite_clear_writesCtrl _).complete _
  · exact s.setStop_writesCtrl
  · exact s.abortPoll_writesCtrl
  · exact (s.pwrite_clear_writesCtrl _).complete _

theorem execI2cWriteBytes_writesCtrl {a : Addr7} {c : Byte} {buf : Word} (h : execI2cWriteBytes a c buf s = .next t) :
    State.WritesCtrl (ctrlWordsAt (.i2cWriteBytes a c buf) s.phase) s t := by
  unfold execI2cWriteBytes at h
  split at h <;> rename_i hp
  -- the fetch is the only phase that may stop on an access (20_memory R69)
  case h_5 => rw [hp]; exact State.txFetch_writesCtrl h
  all_goals cases h
  all_goals rw [hp]
  · exact .nothing (s.goto_hist _)
  · exact State.waitStep_writesCtrl hp
  · exact ((s.pwrite_ctrl_writesCtrl _).moved _ _).goto _
  · exact State.waitStep_writesCtrl hp
  · exact ((s.pwrite_txdr_writesCtrl _).moved _ _).goto _
  · exact State.waitStep_writesCtrl hp
  · exact s.setStop_writesCtrl.goto _
  · exact State.waitStep_writesCtrl hp
  · exact (s.pwrite_clear_writesCtrl _).complete _
  · exact s.setStop_writesCtrl
  · exact s.abortPoll_writesCtrl
  · exact (s.pwrite_clear_writesCtrl _).complete _

theorem execI2cReadBytes_writesCtrl {a : Addr7} {r c : Byte} {buf : Word} (h : execI2cReadBytes a r c buf s = .next t) :
    State.WritesCtrl (ctrlWordsAt (.i2cReadBytes a r c buf) s.phase) s t := by
  unfold execI2cReadBytes at h
  split at h <;> rename_i hp
  -- the store is the only phase that may stop on an access (20_memory R69)
  case h_10 => rw [hp]; exact State.rxStore_writesCtrl h
  all_goals cases h
  all_goals rw [hp]
  · exact .nothing (s.goto_hist _)
  · exact State.waitStep_writesCtrl hp
  · exact (s.pwrite_ctrl_writesCtrl _).goto _
  · exact State.waitStep_writesCtrl hp
  · exact (s.pwrite_txdr_writesCtrl _).goto _
  · exact State.waitStep_writesCtrl hp
  · exact ((s.pwrite_ctrl_writesCtrl _).moved _ _).goto _
  · exact State.waitStep_writesCtrl hp
  · exact s.pread_writesCtrl _
  · exact State.waitStep_writesCtrl hp
  · exact (s.pwrite_clear_writesCtrl _).complete _
  · exact s.setStop_writesCtrl
  · exact s.abortPoll_writesCtrl
  · exact (s.pwrite_clear_writesCtrl _).complete _

/-- A command that is not of the I2C family makes no peripheral access (20_memory R63). -/
theorem exec_writesCtrl_of_not_i2c {i : Instr} (hi : i.isI2c = false) (h : exec i s = .next t) : State.WritesCtrl [] s t := by
  obtain ⟨es, hist, _, fits⟩ := exec_logs h
  have silent : ctrlWrites es = [] := List.filterMap_eq_nil_iff.mpr fun e he => by
    have fit := fits e he
    unfold Event.ctrlWrite?
    split
    · exact absurd fit.1 (by simp [hi])
    · rfl
  rw [State.WritesCtrl, hist, ctrlWrites_append, silent]

/-- What a SEQ step of any command writes to `CTRL`, whatever the state. -/
theorem exec_writesCtrl {i : Instr} (h : exec i s = .next t) : State.WritesCtrl (ctrlWordsAt i s.phase) s t := by
  cases i with
  | i2cWriteByte addr data => exact execI2cWriteByte_writesCtrl h
  | i2cWriteBytes addr count buf => exact execI2cWriteBytes_writesCtrl h
  | i2cReadBytes addr reg count buf => exact execI2cReadBytes_writesCtrl h
  | _ => exact exec_writesCtrl_of_not_i2c rfl h

/-- A `CTRL` write that a SEQ step appends is one of the command's words. -/
theorem mem_ctrlWordsAt_of_exec {i : Instr} {es : List Event} {v : Word} (h : exec i s = .next t) (hist : t.hist = s.hist ++ es)
    (hv : .pWr .ctrl v ∈ es) : v ∈ ctrlWordsAt i s.phase := by
  have written : ctrlWrites (s.hist ++ es) = ctrlWrites s.hist ++ ctrlWordsAt i s.phase := hist ▸ exec_writesCtrl h
  rw [ctrlWrites_append, List.append_cancel_left_eq] at written
  exact written ▸ mem_ctrlWrites hv

end

/-- Settles O24: the word bit by bit, and the `CTRL` writes of a SEQ step by `exec_writesCtrl`. -/
theorem ctrlWord_form : Obligations.CtrlWord := by
  refine ⟨fun a n r e => ?_, fun a n => ⟨ctrlWord_eq _ _ _ _ (by decide), ctrlWord_eq _ _ _ _ (by decide)⟩, by decide, by decide,
    by decide, fun i s t es v h hist hv => ?_⟩
  · obtain ⟨zero, addr, high⟩ := ctrlWord_fields a n r e
    obtain ⟨dir, start, stop, auto⟩ := ctrlWord_flags a n r e
    exact ⟨zero, addr, ctrlWord_nbytes a n r e, dir, start, stop, auto, high⟩
  · have word := mem_ctrlWordsAt_of_exec h hist hv
    unfold ctrlWordsAt at word
    split at word
    · exact List.mem_singleton.mp word
    · exact List.mem_singleton.mp word
    · exact .inl ⟨‹_›, List.mem_singleton.mp word⟩
    · exact .inr ⟨‹_›, List.mem_singleton.mp word⟩
    · cases word

end Sys2Proof.Machine
end

/-! ### The clock commands, phase by phase (O14 to O17) -/

section
namespace Sys2Proof.Machine

/-! What SEQ does at a delay phase, in whichever command it is a point of (40_clock R123, R125). -/

section
variable {i : Instr} {s : State}

theorem exec_of_duEntry (hi : i.hasPhase .duEntry = true) (hp : s.phase = .duEntry) : exec i s = .next s.duEntry := by
  cases i with
  | delayUs n => simp [exec, execDelayUs, hp]
  | measure n => simp [exec, execMeasure, hp]
  | _ => cases hi

theorem exec_of_duWait (hi : i.hasPhase .duWait = true) (hp : s.phase = .duWait) : exec i s = .next s.duWait := by
  cases i with
  | delayUs n => simp [exec, execDelayUs, hp]
  | measure n => simp [exec, execMeasure, hp]
  | _ => cases hi

theorem exec_of_duClear (hi : i.hasPhase .duClear = true) (hp : s.phase = .duClear) : exec i s = .next s.duClear := by
  cases i with
  | delayUs n => simp [exec, execDelayUs, hp]
  | measure n => simp [exec, execMeasure, hp]
  | _ => cases hi

theorem exec_of_dmArm (hi : i.hasPhase .dmArm = true) (hp : s.phase = .dmArm) : exec i s = .next s.dmArm := by
  cases i with
  | delayMs n => simp [exec, execDelayMs, hp]
  | measure n => simp [exec, execMeasure, hp]
  | _ => cases hi

theorem exec_of_dmWait (hi : i.hasPhase .dmWait = true) (hp : s.phase = .dmWait) : exec i s = .next s.dmWait := by
  cases i with
  | delayMs n => simp [exec, execDelayMs, hp]
  | measure n => simp [exec, execMeasure, hp]
  | _ => cases hi

theorem State.delayReturn_of_done (h : s.work.ret = .done) : s.delayReturn = s.complete 0 := by
  simp [State.delayReturn, h, Status.code]

theorem State.duEntry_of_zero (h : s.work.drem = 0) (hr : s.work.ret = .done) : s.duEntry = s.complete 0 :=
  (if_pos h).trans (State.delayReturn_of_done hr)

theorem State.duEntry_of_ne_zero (h : s.work.drem ≠ 0) : s.duEntry = { s.uifClear with phase := .duWait } := if_neg h

theorem State.duWait_of_set (h : s.clk.uif = true) : s.duWait = { s.emit .uifRd with phase := .duClear } := if_pos h

theorem State.duWait_of_clear (h : s.clk.uif = false) : s.duWait = s := by simp [State.duWait, h]

theorem State.duClear_of_one (h : s.work.drem = 1) (hr : s.work.ret = .done) :
    s.duClear = State.complete 0 { s.uifClear with work.drem := 0 } := by
  have last : s.work.drem - 1 = 0 := by rw [h]; rfl
  rw [State.duClear, if_pos last, last]
  exact State.delayReturn_of_done hr

theorem State.duClear_of_ne_one (h : s.work.drem ≠ 1) :
    s.duClear = { s.uifClear with work.drem := s.work.drem - 1, phase := .duWait } :=
  if_neg fun e => h (sub_eq_zero.mp e)

theorem State.dmArm_of_zero (h : s.work.mrem = 0) (hr : s.work.ret = .done) : s.dmArm = s.complete 0 :=
  (if_pos h).trans (State.delayReturn_of_done hr)

theorem State.dmArm_of_ne_zero (h : s.work.mrem ≠ 0) : s.dmArm = { s.mstArm with phase := .dmWait } := if_neg h

theorem State.dmWait_of_done (h : s.mst.done = true) :
    s.dmWait = { s.emit .msDoneRd with work.mrem := s.work.mrem - 1, phase := .dmArm } := if_pos h

theorem State.dmWait_of_not_done (h : s.mst.done = false) : s.dmWait = s := by simp [State.dmWait, h]

end

/-! Each clock command, phase by phase. -/

/-- Settles O14, by the two branches of `CK_INIT`. -/
theorem initClock : Obligations.InitClock := by
  have arm : ∀ s : State, s.phase = .ckInit → exec .initClock s = .next s.ckInit := fun s hp => by
    simp [exec, execInitClock, hp]
  refine ⟨fun s hp => exec_of_decode _ hp, fun s hp hr => ?_, fun s hp hr => ?_, fun s t hp hr h => ?_⟩
  · rw [arm s hp]
    simp [State.ckInit, hr, State.complete, Status.code, cutCnt]
  · rw [arm s hp]
    simp [State.ckInit, hr, State.raise, Faults.add]
  · rw [arm s hp] at h
    cases h
    simp [State.ckInit, hr]

/-- Settles O15: the value read is `CNT`, which is `CLK_W` bits wide by hypothesis. -/
theorem clockNow : Obligations.ClockNow := by
  have arm : ∀ s : State, s.phase = .ckNow → exec .clockNow s = .next s.ckNow := fun s hp => by
    simp [exec, execClockNow, hp]
  refine ⟨fun s hp => exec_of_decode _ hp, fun s hp => ?_, fun s t hp hc h => ?_⟩
  · rw [arm s hp]
    simp [State.ckNow, State.complete, State.clkRead, State.emit, Status.code]
  · rw [arm s hp] at h
    cases h
    exact hc

/-- Settles O16, by the branch each phase takes. -/
theorem delayUsSteps : Obligations.DelayUsSteps := by
  refine fun n s => ⟨fun hp => exec_of_decode _ hp, fun hp h0 hr => ?_, fun hp h0 => ?_, fun hp hu => ?_, fun hp hu => ?_,
    fun hp h1 => ?_, fun hp h1 hr => ?_⟩
  · rw [exec_of_duEntry rfl hp, State.duEntry_of_zero h0 hr]; rfl
  · rw [exec_of_duEntry rfl hp, State.duEntry_of_ne_zero h0]; rfl
  · rw [exec_of_duWait rfl hp, State.duWait_of_set hu]; rfl
  · rw [exec_of_duWait rfl hp, State.duWait_of_clear hu]
  · rw [exec_of_duClear rfl hp, State.duClear_of_ne_one h1]; rfl
  · rw [exec_of_duClear rfl hp, State.duClear_of_one h1 hr]
    simp [State.complete, State.uifClear]

/-- Settles O17, by the branch each phase takes. -/
theorem delayMsSteps : Obligations.DelayMsSteps := by
  refine fun n s => ⟨fun hp => exec_of_decode _ hp, fun hp h0 hr => ?_, fun hp h0 => ?_, fun hp hd => ?_, fun hp hd => ?_⟩
  · rw [exec_of_dmArm rfl hp, State.dmArm_of_zero h0 hr]; rfl
  · rw [exec_of_dmArm rfl hp, State.dmArm_of_ne_zero h0]; rfl
  · rw [exec_of_dmWait rfl hp, State.dmWait_of_done hd]; rfl
  · rw [exec_of_dmWait rfl hp, State.dmWait_of_not_done hd]

end Sys2Proof.Machine
end

/-! ### Invariants of a run without an issue -/

section
namespace Sys2Proof.Machine

@[simp] theorem seqEvents_append (h k : List Event) : seqEvents (h ++ k) = seqEvents h ++ seqEvents k := List.filter_append h k

@[simp] theorem tickCount_append (h k : List Event) : tickCount (h ++ k) = tickCount h + tickCount k := List.count_append

@[simp] theorem expiryCount_append (h k : List Event) : expiryCount (h ++ k) = expiryCount h + expiryCount k :=
  List.count_append

theorem mem_seqEvents_complete {h : List Event} {c : Code} (hc : .complete c ∈ h) : .complete c ∈ seqEvents h :=
  List.mem_filter.mpr ⟨hc, rfl⟩

/-- What a move of HOST that issues nothing leaves, and a turn that passes: everything of SEQ, CLK and MST, and no event but faults
of its own is appended (60_exceptions R224, R226; log 12). -/
structure State.Passes (s t : State) (es : List Event) : Prop where
  hist : t.hist = s.hist ++ es
  silent : ∀ e ∈ es, ∃ f, e = .fault f
  cfg : t.cfg = s.cfg
  phase : t.phase = s.phase
  cmd : t.cmd = s.cmd
  work : t.work = s.work
  res : t.res = s.res
  per : t.per = s.per
  clk : t.clk = s.clk
  mst : t.mst = s.mst
  trig : t.trig = s.trig

section
variable {s t u : State} {es : List Event}

theorem State.Passes.of_nothing (hist : t.hist = s.hist) (cfg : t.cfg = s.cfg) (phase : t.phase = s.phase) (cmd : t.cmd = s.cmd)
    (work : t.work = s.work) (res : t.res = s.res) (per : t.per = s.per) (clk : t.clk = s.clk) (mst : t.mst = s.mst)
    (trig : t.trig = s.trig) : s.Passes t [] :=
  ⟨by simpa using hist, by simp, cfg, phase, cmd, work, res, per, clk, mst, trig⟩

theorem State.Passes.refl (s : State) : s.Passes s [] := .of_nothing rfl rfl rfl rfl rfl rfl rfl rfl rfl rfl

theorem State.dropMove_passes (s : State) : s.Passes s.dropMove [] := by apply State.Passes.of_nothing <;> simp

theorem State.raise_passes (f : ModelFault) (s : State) : s.Passes (s.raise f) [.fault f] :=
  ⟨rfl, by simp, rfl, rfl, rfl, rfl, rfl, rfl, rfl, rfl, rfl⟩

/-- A move that is not SEQ's is a tick, an expiry, an issue or leaves everything but HOST's own (00_scope R6). -/
theorem State.act_cases_of_ne_seq {m : Move} (hm : m ≠ .seq) (h : s.act m = .next t) :
    (s.clk.run = true ∧ t = s.tick) ∨ (s.mst.armed = true ∧ t = s.msExpire) ∨ (∃ d, t.hist = s.hist ++ [.issue d]) ∨
      ∃ es, s.Passes t es := by
  rcases State.act_next h with ⟨e, _⟩ | ⟨_, hr, e⟩ | ⟨_, ha, e⟩ | ⟨d, _, _, rfl⟩ | ⟨r, _, _, e⟩ | ⟨a, v, _, _, e⟩ | ⟨_, rfl⟩
  · exact absurd e hm
  · exact .inl ⟨hr, e⟩
  · exact .inr (.inl ⟨ha, e⟩)
  · rcases s.issue_cases d with ⟨_, e⟩ | ⟨_, e⟩ <;> rw [e]
    · exact .inr (.inr (.inl ⟨d, rfl⟩))
    · exact .inr (.inr (.inr ⟨_, s.raise_passes _⟩))
  · obtain ⟨_, ⟨v, _, rfl⟩ | ⟨_, rfl⟩⟩ := State.hostRead_next e
    · exact .inr (.inr (.inr ⟨[], .of_nothing rfl rfl rfl rfl rfl rfl rfl rfl rfl rfl⟩))
    · exact .inr (.inr (.inr ⟨_, s.raise_passes _⟩))
  · obtain ⟨_, rfl⟩ := State.hostStore_next e
    exact .inr (.inr (.inr ⟨[], .of_nothing rfl rfl rfl rfl rfl rfl rfl rfl rfl rfl⟩))
  · exact .inr (.inr (.inr ⟨[], .refl _⟩))

theorem State.Passes.seqEvents_eq (h : s.Passes t es) : seqEvents es = [] :=
  List.filter_eq_nil_iff.mpr fun e he => by
    obtain ⟨f, rfl⟩ := h.silent e he
    exact Bool.false_ne_true

theorem State.Passes.not_mem (h : s.Passes t es) {e : Event} (he : ∀ f, e ≠ .fault f) : e ∉ es := fun hm =>
  let ⟨f, hf⟩ := h.silent e hm
  he f hf

theorem State.Passes.expiryCount_eq (h : s.Passes t es) : expiryCount es = 0 := List.count_eq_zero.mpr (h.not_mem nofun)

end

/-- An invariant of runs: `P s h`, of a state and of what was appended to `HIST` since a run began, is kept by every move but an
issue. -/
structure RunInvariant (P : State → List Event → Prop) : Prop where
  seq : ∀ {s t h}, P s h → s.seqStep = .next t → ∃ es, t.hist = s.hist ++ es ∧ P t (h ++ es)
  tick : ∀ {s h}, P s h → s.clk.run = true → P s.tick (h ++ [.tick])
  expire : ∀ {s h}, P s h → s.mst.armed = true → P s.msExpire (h ++ [.msExpire])
  pass : ∀ {s t h es}, P s h → s.Passes t es → P t (h ++ es)

section
variable {P : State → List Event → Prop} {s t : State} {h es : List Event}

theorem RunInvariant.act (I : RunInvariant P) (h0 : P s h) {m : Move} (e : s.act m = .next t) (hist : t.hist = s.hist ++ es)
    (unissued : ∀ d, Event.issue d ∉ es) : P t (h ++ es) := by
  have same : ∀ {fs}, t.hist = s.hist ++ fs → fs = es := fun e => List.append_cancel_left (e.symm.trans hist)
  by_cases hm : m = .seq
  · subst hm
    obtain ⟨fs, hist', ht⟩ := I.seq h0 e
    exact same hist' ▸ ht
  · rcases State.act_cases_of_ne_seq hm e with ⟨hr, rfl⟩ | ⟨ha, rfl⟩ | ⟨d, hist'⟩ | ⟨fs, p⟩
    · exact same s.tick_hist ▸ I.tick h0 hr
    · exact same s.msExpire_hist ▸ I.expire h0 ha
    · exact absurd (same hist' ▸ List.mem_singleton_self _) (unissued d)
    · exact same p.hist ▸ I.pass h0 p

theorem run_appends {k : Nat} (e : Sys2Proof.core.run k s = .next t) : ∃ es, t.hist = s.hist ++ es := by
  induction k generalizing s with
  | zero => cases e; exact ⟨[], by simp⟩
  | succ k ih =>
    obtain ⟨y, hy, hr⟩ := core_run_succ_next e
    obtain ⟨es, hist, _⟩ := step_appends_le_two hy
    obtain ⟨fs, hist'⟩ := ih hr
    exact ⟨es ++ fs, by rw [hist', hist, List.append_assoc]⟩

theorem RunInvariant.run (I : RunInvariant P) {k : Nat} (h0 : P s h) (e : Sys2Proof.core.run k s = .next t)
    (hist : t.hist = s.hist ++ es) (unissued : ∀ d, Event.issue d ∉ es) : P t (h ++ es) := by
  induction k generalizing s h es with
  | zero =>
    cases e
    obtain rfl : es = [] := by simpa using hist
    simpa using h0
  | succ k ih =>
    obtain ⟨y, hy, hr⟩ := core_run_succ_next e
    obtain ⟨fs, hist₁, _⟩ := step_appends_le_two hy
    obtain ⟨gs, hist₂⟩ := run_appends hr
    obtain rfl : fs ++ gs = es := List.append_cancel_left (by rw [← List.append_assoc, ← hist₁, ← hist₂, hist])
    have dropped : P s.dropMove h := by simpa using I.pass h0 s.dropMove_passes
    have moved : P y (h ++ fs) := I.act dropped hy (by simpa using hist₁) fun d hd => unissued d (List.mem_append_left _ hd)
    rw [← List.append_assoc]
    exact ih moved hr hist₂ fun d hd => unissued d (List.mem_append_right _ hd)

/-- An invariant that holds when a run begins holds when it ends. -/
theorem RunInvariant.of_runOf (I : RunInvariant P) {k : Nat} (h0 : P s []) (r : RunOf k s t h) : P t h :=
  let ⟨e, hist, unissued⟩ := r
  I.run h0 e hist unissued

end

/-- SEQ is idle or at a phase of the command `i`, which `C_DESC` decodes to. -/
def State.Latched (i : Instr) (s : State) : Prop := s.cmd = Cmd.ofDesc s.cmd.desc ∧ decode s.cmd.desc = .ok i

theorem State.Latched.seqStep_eq {i : Instr} {s : State} (l : s.Latched i) (hf : s.faults.clockReinit = false)
    (hi : s.phase ≠ .idle) : s.seqStep = exec i s := by
  obtain ⟨latched, legal⟩ := l
  by_cases hp : s.phase = .decode
  · exact State.seqStep_of_decode hf hp legal
  · exact State.seqStep_of_later hf hi hp latched legal

/-- SEQ's turn passes, or is a step of the latched command. -/
theorem State.Latched.seqStep_cases {i : Instr} {s t : State} (l : s.Latched i) (e : s.seqStep = .next t) :
    t = s ∨ (s.phase ≠ .idle ∧ exec i s = .next t) := by
  rcases State.seqStep_effect e with ⟨_, same⟩ | ⟨hf, _⟩
  · exact .inl same
  · by_cases hi : s.phase = .idle
    · rw [State.seqStep_of_idle hi] at e
      exact .inl (Host.Outcome.next.inj e).symm
    · exact .inr ⟨hi, l.seqStep_eq hf hi ▸ e⟩

/-- An invariant of a run over the command `i`, told of its own steps and of the other agents' moves. -/
structure CommandInvariant (i : Instr) (P : State → List Event → Prop) : Prop where
  advance : ∀ {s t h}, P s h → s.phase ≠ .idle → exec i s = .next t → ∃ es, t.hist = s.hist ++ es ∧ P t (h ++ es)
  tick : ∀ {s h}, P s h → s.clk.run = true → P s.tick (h ++ [.tick])
  expire : ∀ {s h}, P s h → s.mst.armed = true → P s.msExpire (h ++ [.msExpire])
  pass : ∀ {s t h es}, P s h → s.Passes t es → P t (h ++ es)

theorem CommandInvariant.runInvariant {i : Instr} {P : State → List Event → Prop} (I : CommandInvariant i P) :
    RunInvariant fun s h => s.Latched i ∧ P s h where
  seq := by
    rintro s t h ⟨l, hs⟩ e
    rcases l.seqStep_cases e with rfl | ⟨hi, e⟩
    · exact ⟨[], by simp, l, by simpa using hs⟩
    · obtain ⟨es, hist, ht⟩ := I.advance hs hi e
      exact ⟨es, hist, by rwa [State.Latched, (exec_effect e).cmd_eq], ht⟩
  tick := fun ⟨l, hs⟩ hr => ⟨l, I.tick hs hr⟩
  expire := fun ⟨l, hs⟩ ha => ⟨l, I.expire hs ha⟩
  pass := fun ⟨l, hs⟩ p => ⟨by rwa [State.Latched, p.cmd], I.pass hs p⟩

/-- An invariant that holds at the start of a command holds all along its run. -/
theorem CommandInvariant.of_runOf {i : Instr} {P : State → List Event → Prop} {k : Nat} {s t : State} {h : List Event}
    (I : CommandInvariant i P) (starts : s.Starts i) (h0 : P s []) (r : RunOf k s t h) : P t h :=
  (I.runInvariant.of_runOf ⟨starts.2, h0⟩ r).2

end Sys2Proof.Machine
end

/-! ### `DELAY_US` and `DELAY_MS`, however the agents interleave (O19, O20) -/

section
namespace Sys2Proof.Machine

theorem toNat_sub_one {x : Word} (hx : x ≠ 0) : (x - 1).toNat + 1 = x.toNat := by
  have pos : 0 < x.toNat := Nat.pos_of_ne_zero fun h => hx (BitVec.eq_of_toNat_eq h)
  have one_le : 1 ≤ x := BitVec.le_def.mpr pos
  rw [BitVec.toNat_sub_of_le one_le]
  exact Nat.sub_add_cancel pos

section
variable {s t : State} {h es : List Event} {n : Word} {k m : Nat} {p : Phase} {w : Work} {u v : Bool}

/-- SEQ's events of `DELAY_US` from its entry's flag clear to the end of its `k`-th wait (40_clock R123). -/
def waitedUs (k : Nat) : List Event := .uifClr :: (List.replicate k [Event.uifRd, Event.uifClr]).flatten

theorem waitedUs_succ (k : Nat) : waitedUs (k + 1) = waitedUs k ++ [.uifRd, .uifClr] := by
  simp [waitedUs, List.replicate_succ']

theorem delayUsEvents_of_ne_zero (hk : k ≠ 0) : delayUsEvents k = waitedUs k := if_neg hk

theorem complete_not_mem_waitedUs (c : Code) (k : Nat) : Event.complete c ∉ waitedUs k := by simp [waitedUs]

theorem complete_not_mem_delayUsEvents (c : Code) (k : Nat) : Event.complete c ∉ delayUsEvents k := by
  by_cases hk : k = 0
  · simp [delayUsEvents, hk]
  · rw [delayUsEvents_of_ne_zero hk]; exact complete_not_mem_waitedUs c k

theorem delayMsEvents_succ (k : Nat) : delayMsEvents (k + 1) = delayMsEvents k ++ [.msArm, .msDoneRd] := by
  simp [delayMsEvents, List.replicate_succ']

theorem complete_not_mem_delayMsEvents (c : Code) (k : Nat) : Event.complete c ∉ delayMsEvents k := by simp [delayMsEvents]

/-- At least `m` ticks fell after the first flag clear. -/
def TicksSinceClear (m : Nat) (h : List Event) : Prop :=
  ∃ a b, h = a ++ [.uifClr] ++ b ∧ Event.uifClr ∉ a ∧ m ≤ tickCount b

theorem TicksSinceClear.append (x : TicksSinceClear m h) (le : k ≤ m + tickCount es) : TicksSinceClear k (h ++ es) := by
  obtain ⟨a, b, rfl, ha, hb⟩ := x
  exact ⟨a, b ++ es, by simp, ha, by rw [tickCount_append]; omega⟩

/-- At least `m` ticks fell between the first flag clear and a completion with `OK`. -/
def TicksTillEnd (m : Nat) (h : List Event) : Prop :=
  ∃ a b d, h = a ++ [.uifClr] ++ b ++ [.complete 0] ++ d ∧ Event.uifClr ∉ a ∧ m ≤ tickCount b

theorem TicksSinceClear.tillEnd (x : TicksSinceClear m h) : TicksTillEnd m (h ++ [.complete 0]) := by
  obtain ⟨a, b, rfl, ha, hb⟩ := x
  exact ⟨a, b, [], by simp, ha, hb⟩

theorem TicksTillEnd.append (x : TicksTillEnd m h) (es : List Event) : TicksTillEnd m (h ++ es) := by
  obtain ⟨a, b, d, rfl, ha, hb⟩ := x
  exact ⟨a, b, d ++ es, by simp, ha, hb⟩

/-- Where `DELAY_US n` is, with `UIF = u`, after its run so far appended `h`: how many of its waits are over, SEQ's events, and
the ticks, one for each wait that is over and one for a flag that is set or was just read (40_clock R123, R124). -/
inductive DelayUsAt (n : Word) (p : Phase) (w : Work) (u : Bool) (h : List Event) : Prop
  | decode (hp : p = .decode) (events : seqEvents h = [])
  | entry (hp : p = .duEntry) (ret : w.ret = .done) (drem : w.drem = n) (events : seqEvents h = [])
  | wait (k : Nat) (hp : p = .duWait) (ret : w.ret = .done) (drem : w.drem ≠ 0) (left : k + w.drem.toNat = n.toNat)
      (events : seqEvents h = waitedUs k) (ticks : TicksSinceClear (k + u.toNat) h)
  | clear (k : Nat) (hp : p = .duClear) (ret : w.ret = .done) (drem : w.drem ≠ 0) (left : k + w.drem.toNat = n.toNat)
      (events : seqEvents h = waitedUs k ++ [.uifRd]) (ticks : TicksSinceClear (k + 1) h)
  | ended (hp : p = .idle) (events : seqEvents h = delayUsEvents n.toNat ++ [.complete 0])
      (ticks : n ≠ 0 → TicksTillEnd n.toNat h)

/-- A move of another agent appends no event of SEQ, and sets the flag by a tick only. -/
theorem DelayUsAt.append (x : DelayUsAt n p w u h) (silent : seqEvents es = []) (flag : v.toNat ≤ u.toNat + tickCount es) :
    DelayUsAt n p w v (h ++ es) := by
  have same : seqEvents (h ++ es) = seqEvents h := by simp [silent]
  cases x with
  | decode hp events => exact .decode hp (same.trans events)
  | entry hp ret drem events => exact .entry hp ret drem (same.trans events)
  | wait k hp ret drem left events ticks =>
    exact .wait k hp ret drem left (same.trans events) (ticks.append (by omega))
  | clear k hp ret drem left events ticks =>
    exact .clear k hp ret drem left (same.trans events) (ticks.append (by omega))
  | ended hp events ticks => exact .ended hp (same.trans events) fun hn => (ticks hn).append es

/-- The completion is the last of SEQ's events. -/
theorem DelayUsAt.of_complete {c : Code} (x : DelayUsAt n p w u h) (hc : .complete c ∈ h) :
    c = 0 ∧ seqEvents h = delayUsEvents n.toNat ++ [.complete 0] ∧ (n ≠ 0 → TicksTillEnd n.toNat h) := by
  have mem := mem_seqEvents_complete hc
  cases x with
  | decode hp events => simp [events] at mem
  | entry hp ret drem events => simp [events] at mem
  | wait k hp ret drem left events ticks => simp [events, complete_not_mem_waitedUs] at mem
  | clear k hp ret drem left events ticks => simp [events, complete_not_mem_waitedUs] at mem
  | ended hp events ticks => exact ⟨by simpa [events, complete_not_mem_delayUsEvents] using mem, events, ticks⟩

/-- One SEQ step of `DELAY_US` goes to the next point. -/
theorem DelayUsAt.advance (x : DelayUsAt n s.phase s.work s.clk.uif h) (hi : s.phase ≠ .idle) (e : exec (.delayUs n) s = .next t) :
    ∃ es, t.hist = s.hist ++ es ∧ DelayUsAt n t.phase t.work t.clk.uif (h ++ es) := by
  cases x with
  | decode hp events =>
    rw [exec_of_decode _ hp] at e
    cases e
    exact ⟨[], by simp [State.begin], .entry rfl rfl rfl (by simpa using events)⟩
  | entry hp ret drem events =>
    rw [exec_of_duEntry rfl hp] at e
    cases e
    by_cases h0 : s.work.drem = 0
    · rw [State.duEntry_of_zero h0 ret]
      have hn : n = 0 := drem.symm.trans h0
      exact ⟨_, rfl, .ended rfl (by rw [seqEvents_append, events, hn]; rfl) (absurd hn)⟩
    · rw [State.duEntry_of_ne_zero h0]
      have unseen : Event.uifClr ∉ h := fun hm => by
        have mem : .uifClr ∈ seqEvents h := List.mem_filter.mpr ⟨hm, rfl⟩
        simp [events] at mem
      exact ⟨[.uifClr], rfl, .wait 0 rfl ret h0 (by simp [drem]) (by rw [seqEvents_append, events]; rfl)
        ⟨h, [], by simp, unseen, Nat.zero_le _⟩⟩
  | wait k hp ret drem left events ticks =>
    rw [exec_of_duWait rfl hp] at e
    cases e
    cases hu : s.clk.uif with
    | false =>
      rw [State.duWait_of_clear hu]
      exact ⟨[], by simp, .wait k hp ret drem left (by simpa using events) (by simpa using ticks)⟩
    | true =>
      rw [State.duWait_of_set hu]
      rw [hu] at ticks
      exact ⟨[.uifRd], rfl, .clear k rfl ret drem left (by rw [seqEvents_append, events]; rfl) (ticks.append (by simp))⟩
  | clear k hp ret drem left events ticks =>
    rw [exec_of_duClear rfl hp] at e
    cases e
    have counted := toNat_sub_one drem
    by_cases h1 : s.work.drem = 1
    · rw [State.duClear_of_one h1 ret]
      have hk : n.toNat = k + 1 := by rw [← left, h1]; rfl
      refine ⟨[.uifClr, .complete 0], by simp, .ended rfl ?_ fun _ => ?_⟩
      · rw [seqEvents_append, events, hk, delayUsEvents_of_ne_zero (Nat.succ_ne_zero k), waitedUs_succ, List.append_assoc,
          List.append_assoc]
        rfl
      · rw [show h ++ [.uifClr, .complete 0] = h ++ [.uifClr] ++ [.complete 0] by simp]
        exact (ticks.append (by omega)).tillEnd
    · rw [State.duClear_of_ne_one h1]
      refine ⟨[.uifClr], rfl, .wait (k + 1) rfl ret (sub_ne_zero.mpr h1) ?_ ?_ ?_⟩
      · show k + 1 + (s.work.drem - 1).toNat = n.toNat
        omega
      · rw [seqEvents_append, events, waitedUs_succ, List.append_assoc]; rfl
      · exact ticks.append (by simp)
  | ended hp events ticks => exact absurd hp hi

theorem delayUsAt_invariant (n : Word) :
    CommandInvariant (.delayUs n) fun s h => DelayUsAt n s.phase s.work s.clk.uif h where
  advance := DelayUsAt.advance
  tick := fun x _ => x.append rfl (by simp [tickCount])
  expire := fun x _ => x.append rfl (by simp)
  pass := fun x p => by rw [p.phase, p.work, p.clk]; exact x.append p.seqEvents_eq (by simp)

/-- Settles O19, by the invariant `DelayUsAt`: each wait that is over has had a tick of its own since the entry's clear. -/
theorem delayUsTicks : Obligations.DelayUsTicks := fun n _ _ _ _ _ starts r hc =>
  ((delayUsAt_invariant n).of_runOf starts (.decode starts.1 rfl) r).of_complete hc

end

section
variable {s t : State} {h es : List Event} {n : Word} {p : Phase} {w : Work} {x : MsTimer}

/-- Where `DELAY_MS n` is, with the timer `x`, after its run so far appended `h`: how many milliseconds are over, SEQ's events and
the expiries, one more of these where the timer is done and SEQ has not read it yet (40_clock R125, R126). -/
inductive DelayMsAt (n : Word) (p : Phase) (w : Work) (x : MsTimer) (h : List Event) : Prop
  | decode (hp : p = .decode) (idle : x.armed = false) (events : seqEvents h = []) (expiries : expiryCount h = 0)
  | arm (k : Nat) (hp : p = .dmArm) (idle : x.armed = false) (ret : w.ret = .done) (left : k + w.mrem.toNat = n.toNat)
      (events : seqEvents h = delayMsEvents k) (expiries : expiryCount h = k)
  | wait (k : Nat) (hp : p = .dmWait) (ret : w.ret = .done) (mrem : w.mrem ≠ 0) (left : k + w.mrem.toNat = n.toNat)
      (events : seqEvents h = delayMsEvents k ++ [.msArm]) (expiries : expiryCount h = k + x.done.toNat)
      (timer : x.armed = !x.done)
  | ended (hp : p = .idle) (idle : x.armed = false) (events : seqEvents h = delayMsEvents n.toNat ++ [.complete 0])
      (expiries : expiryCount h = n.toNat)

/-- A move of another agent than SEQ and MST appends no event of SEQ and no expiry. -/
theorem DelayMsAt.append (a : DelayMsAt n p w x h) (silent : seqEvents es = []) (none : expiryCount es = 0) :
    DelayMsAt n p w x (h ++ es) := by
  have same : seqEvents (h ++ es) = seqEvents h := by simp [silent]
  have count : expiryCount (h ++ es) = expiryCount h := by simp [none]
  cases a with
  | decode hp idle events expiries => exact .decode hp idle (same.trans events) (count.trans expiries)
  | arm k hp idle ret left events expiries => exact .arm k hp idle ret left (same.trans events) (count.trans expiries)
  | wait k hp ret mrem left events expiries timer =>
    exact .wait k hp ret mrem left (same.trans events) (count.trans expiries) timer
  | ended hp idle events expiries => exact .ended hp idle (same.trans events) (count.trans expiries)

/-- The timer is armed only while SEQ waits for it, and its expiry ends the wait. -/
theorem DelayMsAt.expire (a : DelayMsAt n p w x h) (armed : x.armed = true) :
    DelayMsAt n p w { armed := false, done := true } (h ++ [.msExpire]) := by
  cases a with
  | decode hp idle events expiries => rw [idle] at armed; cases armed
  | arm k hp idle ret left events expiries => rw [idle] at armed; cases armed
  | wait k hp ret mrem left events expiries timer =>
    have fresh : x.done = false := by simpa [timer] using armed
    refine .wait k hp ret mrem left (by rw [seqEvents_append, events, List.append_assoc]; rfl) ?_ rfl
    rw [expiryCount_append, expiries, fresh]; rfl
  | ended hp idle events expiries => rw [idle] at armed; cases armed

/-- One SEQ step of `DELAY_MS` goes to the next point. -/
theorem DelayMsAt.advance (a : DelayMsAt n s.phase s.work s.mst h) (hi : s.phase ≠ .idle) (e : exec (.delayMs n) s = .next t) :
    ∃ es, t.hist = s.hist ++ es ∧ DelayMsAt n t.phase t.work t.mst (h ++ es) := by
  cases a with
  | decode hp idle events expiries =>
    rw [exec_of_decode _ hp] at e
    cases e
    refine ⟨[], by simp [State.begin], ?_⟩
    rw [List.append_nil]
    exact .arm 0 rfl idle rfl (Nat.zero_add _) events expiries
  | arm k hp idle ret left events expiries =>
    rw [exec_of_dmArm rfl hp] at e
    cases e
    by_cases h0 : s.work.mrem = 0
    · rw [State.dmArm_of_zero h0 ret]
      have hk : n.toNat = k := by rw [← left, h0]; rfl
      refine ⟨_, rfl, .ended rfl idle ?_ ?_⟩
      · rw [seqEvents_append, events, hk]; rfl
      · rw [expiryCount_append, expiries, hk]; rfl
    · rw [State.dmArm_of_ne_zero h0]
      refine ⟨_, rfl, .wait k rfl ret h0 left ?_ ?_ rfl⟩
      · rw [seqEvents_append, events]; rfl
      · rw [expiryCount_append, expiries]; rfl
  | wait k hp ret mrem left events expiries timer =>
    rw [exec_of_dmWait rfl hp] at e
    cases e
    cases hd : s.mst.done with
    | false =>
      rw [State.dmWait_of_not_done hd]
      exact ⟨[], by simp, .wait k hp ret mrem left (by simpa using events) (by simpa using expiries) timer⟩
    | true =>
      rw [State.dmWait_of_done hd]
      have counted := toNat_sub_one mrem
      rw [hd] at timer expiries
      refine ⟨_, rfl, .arm (k + 1) rfl timer ret ?_ ?_ ?_⟩
      · show k + 1 + (s.work.mrem - 1).toNat = n.toNat
        omega
      · rw [seqEvents_append, events, delayMsEvents_succ, List.append_assoc]; rfl
      · rw [expiryCount_append, expiries]; rfl
  | ended hp idle events expiries => exact absurd hp hi

/-- The completion is the last of SEQ's events. -/
theorem DelayMsAt.of_complete {c : Code} (a : DelayMsAt n p w x h) (hc : .complete c ∈ h) :
    c = 0 ∧ seqEvents h = delayMsEvents n.toNat ++ [.complete 0] ∧ expiryCount h = n.toNat := by
  have mem := mem_seqEvents_complete hc
  cases a with
  | decode hp idle events expiries => simp [events] at mem
  | arm k hp idle ret left events expiries => simp [events, complete_not_mem_delayMsEvents] at mem
  | wait k hp ret mrem left events expiries timer => simp [events, complete_not_mem_delayMsEvents] at mem
  | ended hp idle events expiries =>
    exact ⟨by simpa [events, complete_not_mem_delayMsEvents] using mem, events, expiries⟩

theorem delayMsAt_invariant (n : Word) : CommandInvariant (.delayMs n) fun s h => DelayMsAt n s.phase s.work s.mst h where
  advance := DelayMsAt.advance
  tick := fun a _ => a.append rfl rfl
  expire := fun a armed => a.expire armed
  pass := fun a p => by rw [p.phase, p.work, p.mst]; exact a.append p.seqEvents_eq p.expiryCount_eq

/-- Settles O20, by the invariant `DelayMsAt`: an expiry needs an arming, and SEQ arms once per millisecond. -/
theorem delayMsExpiries : Obligations.DelayMsExpiries := fun n _ _ _ _ _ starts idle r hc =>
  ((delayMsAt_invariant n).of_runOf starts (.decode starts.1 idle rfl rfl) r).of_complete hc

end

end Sys2Proof.Machine
end

/-! ### A microsecond delay while the counter stands still (O21) -/

section
namespace Sys2Proof.Machine

section
variable {i : Instr} {s t : State} {h es : List Event} {n : Word} {p : Phase} {w : Work} {u : Bool} {r : Results}

/-- SEQ at `DU_WAIT` of a command with that phase, the flag clear and the counter not running: nothing has happened to SEQ since
the clock was `c` and the result registers `r`. -/
structure StuckAtWait (i : Instr) (c : Clock) (r : Results) (s : State) (h : List Event) : Prop where
  instr : s.cmd.instr = some i
  phase : s.phase = .duWait
  clk : s.clk = c
  res : s.res = r
  events : seqEvents h = []

theorem stuckAtWait_invariant {c : Clock} (hi : i.hasPhase .duWait = true) (hu : c.uif = false) (hr : c.run = false) :
    RunInvariant (StuckAtWait i c r) where
  seq := by
    intro s t h x e
    suffices same : t = s by subst same; exact ⟨[], by simp, by simpa using x⟩
    rcases State.seqStep_cases e with ⟨_, e⟩ | ⟨_, idle, _⟩ | ⟨_, decode, _⟩ | ⟨_, _, _, e⟩
    · exact Host.Outcome.next.inj e
    · rw [x.phase] at idle; cases idle
    · rw [x.phase] at decode; cases decode
    · have holds : s.duWait = s := State.duWait_of_clear (by rw [x.clk, hu])
      rw [State.phaseStep, x.instr] at e
      exact Host.Outcome.next.inj (e.trans ((exec_of_duWait hi x.phase).trans (by rw [holds])))
  tick := fun x run => by rw [x.clk, hr] at run; cases run
  expire := fun ⟨instr, phase, clk, res, events⟩ _ =>
    ⟨instr, phase, clk, res, by rw [seqEvents_append, events]; rfl⟩
  pass := fun ⟨instr, phase, clk, res, events⟩ m =>
    ⟨by rwa [m.cmd], m.phase.trans phase, m.clk.trans clk, m.res.trans res, by simp [events, m.seqEvents_eq]⟩

/-- SEQ's events of `DELAY_US` or `MEASURE` before it first enters `DU_ENTRY` (40_clock R124, 42_ranger R182). -/
def eventsBeforeDelay (i : Instr) : List Event :=
  match i with
  | .measure _ => [.trigWr false]
  | _ => []

/-- The points of `DELAY_US` and `MEASURE` up to the first wait that is not over, after the run so far appended `h`. -/
inductive BeforeFirstFlag (i : Instr) (p : Phase) (w : Work) (u : Bool) (h : List Event) : Prop
  | decode (hp : p = .decode) (events : seqEvents h = [])
  | trigger (timeout : Word) (hi : i = .measure timeout) (hp : p = .rgTrig0) (events : seqEvents h = [])
  | entry (hp : p = .duEntry) (drem : w.drem ≠ 0) (events : seqEvents h = eventsBeforeDelay i)
  | wait (hp : p = .duWait) (flag : u = false) (events : seqEvents h = eventsBeforeDelay i ++ [.uifClr])

theorem BeforeFirstFlag.append (b : BeforeFirstFlag i p w u h) (silent : seqEvents es = []) :
    BeforeFirstFlag i p w u (h ++ es) := by
  have same : seqEvents (h ++ es) = seqEvents h := by simp [silent]
  cases b with
  | decode hp events => exact .decode hp (same.trans events)
  | trigger timeout hi hp events => exact .trigger timeout hi hp (same.trans events)
  | entry hp drem events => exact .entry hp drem (same.trans events)
  | wait hp flag events => exact .wait hp flag (same.trans events)

theorem BeforeFirstFlag.phase_ne_idle (b : BeforeFirstFlag i p w u h) : p ≠ .idle := by
  cases b with
  | decode hp events => simp [hp]
  | trigger timeout hi hp events => simp [hp]
  | entry hp drem events => simp [hp]
  | wait hp flag events => simp [hp]

theorem BeforeFirstFlag.events_upToClear (b : BeforeFirstFlag i p w u h) :
    seqEvents h <+: eventsBeforeDelay i ++ [.uifClr] := by
  cases b with
  | decode hp events => simp [events]
  | trigger timeout hi hp events => simp [events]
  | entry hp drem events => simp [events]
  | wait hp flag events => simp [events]

/-- `DELAY_US` of at least one tick, and `MEASURE`: the commands that come to a wait for `UIF` whatever happens. -/
def WaitsForFlag (i : Instr) : Prop := (∃ n, n ≠ 0 ∧ i = .delayUs n) ∨ ∃ timeout, i = .measure timeout

/-- A SEQ step before the first flag leads no further than to the wait, and changes neither counter nor result registers. -/
theorem BeforeFirstFlag.advance (hi : WaitsForFlag i) (b : BeforeFirstFlag i s.phase s.work s.clk.uif h) (e : exec i s = .next t) :
    ∃ es, t.hist = s.hist ++ es ∧ BeforeFirstFlag i t.phase t.work t.clk.uif (h ++ es) ∧ t.clk.run = s.clk.run ∧
      t.res = s.res := by
  have phases : i.hasPhase .duEntry = true ∧ i.hasPhase .duWait = true := by
    rcases hi with ⟨n, _, rfl⟩ | ⟨timeout, rfl⟩ <;> exact ⟨rfl, rfl⟩
  cases b with
  | decode hp events =>
    rw [exec_of_decode _ hp] at e
    cases e
    rcases hi with ⟨n, hn, rfl⟩ | ⟨timeout, rfl⟩
    · exact ⟨[], by simp [State.begin], .entry rfl hn (by rw [List.append_nil, events]; rfl), rfl, rfl⟩
    · exact ⟨[], by simp [State.begin], .trigger timeout rfl rfl (by simpa using events), rfl, rfl⟩
  | trigger timeout hi hp events =>
    have arm : exec i s = .next (s.trigHold false .rgTrig1) := by simp [hi, exec, execMeasure, hp]
    rw [arm] at e
    cases e
    exact ⟨[.trigWr false], rfl, .entry rfl nofun (by rw [seqEvents_append, events, hi]; rfl), rfl, rfl⟩
  | entry hp drem events =>
    rw [exec_of_duEntry phases.1 hp, State.duEntry_of_ne_zero drem] at e
    cases e
    exact ⟨[.uifClr], rfl, .wait rfl rfl (by rw [seqEvents_append, events]; rfl), rfl, rfl⟩
  | wait hp flag events =>
    rw [exec_of_duWait phases.2 hp, State.duWait_of_clear flag] at e
    cases e
    exact ⟨[], by simp, .wait hp flag (by simpa using events), rfl, rfl⟩

theorem beforeFirstFlag_invariant (hi : WaitsForFlag i) :
    CommandInvariant i fun s h => BeforeFirstFlag i s.phase s.work s.clk.uif h ∧ s.clk.run = false ∧ s.res = r where
  advance := fun ⟨b, run, res⟩ _ e => by
    obtain ⟨es, hist, b, run', res'⟩ := b.advance hi e
    exact ⟨es, hist, b, run'.trans run, res'.trans res⟩
  tick := fun ⟨_, run, _⟩ hr => by rw [run] at hr; cases hr
  expire := fun ⟨b, run, res⟩ _ => ⟨b.append rfl, run, res⟩
  pass := fun ⟨b, run, res⟩ m => by
    rw [m.phase, m.work, m.clk, m.res]
    exact ⟨b.append m.seqEvents_eq, run, res⟩

/-- While the counter stands still a command that waits for the flag does not complete. -/
theorem BeforeFirstFlag.of_runOf {k : Nat} (hi : WaitsForFlag i) (starts : s.Starts i) (run : s.clk.run = false)
    (ho : RunOf k s t h) : t.phase ≠ .idle ∧ seqEvents h <+: eventsBeforeDelay i ++ [.uifClr] ∧ t.res = s.res :=
  let ⟨b, _, res⟩ := (beforeFirstFlag_invariant hi).of_runOf starts ⟨.decode starts.1 rfl, run, rfl⟩ ho
  ⟨b.phase_ne_idle, b.events_upToClear, res⟩

/-- Settles O21: nothing sets the flag while no tick comes, so a state before the first flag stays one. -/
theorem delayUsStuck : Obligations.DelayUsStuck := by
  refine ⟨fun n k s t h hp hu hr hi ho => ?_, fun n k s t h hn starts run ho => ?_, fun timeout k s t h starts run ho => ?_⟩
  · obtain ⟨i, instr, hasWait⟩ : ∃ i, s.cmd.instr = some i ∧ i.hasPhase .duWait = true :=
      hi.elim (fun e => ⟨_, e, rfl⟩) fun e => ⟨_, e, rfl⟩
    have stuck := (stuckAtWait_invariant hasWait hu hr).of_runOf ⟨instr, hp, rfl, rfl, rfl⟩ ho
    exact ⟨stuck.phase, stuck.events, stuck.clk, stuck.res⟩
  · exact BeforeFirstFlag.of_runOf (.inl ⟨n, hn, rfl⟩) starts run ho
  · exact BeforeFirstFlag.of_runOf (.inr ⟨timeout, rfl⟩) starts run ho

end

end Sys2Proof.Machine
end

/-! ### The counter, and the delays on their schedule (O18, O23) -/

section
namespace Sys2Proof.Machine

/-! The counter modulo 2^`CLK_W` (10_state R34, 60_exceptions R220). -/

section
variable {c : Config} {v : Word}

theorem two_pow_clkW_dvd (hc : c.wellFormed = true) : 2 ^ c.clkW ∣ 2 ^ 32 := by
  simp only [Config.wellFormed, Bool.and_eq_true, decide_eq_true_eq] at hc
  exact pow_dvd_pow 2 hc.2

theorem toNat_ofNat_mod (hc : c.wellFormed = true) (n : Nat) : (BitVec.ofNat 32 (n % 2 ^ c.clkW)).toNat = n % 2 ^ c.clkW := by
  rw [BitVec.toNat_ofNat]
  have le : 2 ^ c.clkW ≤ 2 ^ 32 := Nat.le_of_dvd (Nat.two_pow_pos 32) (two_pow_clkW_dvd hc)
  exact Nat.mod_eq_of_lt ((Nat.mod_lt _ (Nat.two_pow_pos _)).trans_le le)

theorem toNat_nextCnt (hc : c.wellFormed = true) : (nextCnt c v).toNat = (v.toNat + 1) % 2 ^ c.clkW := toNat_ofNat_mod hc _

/-- The counter after `n` ticks. -/
theorem toNat_iterate_nextCnt (hc : c.wellFormed = true) (hv : v.toNat < 2 ^ c.clkW) (n : Nat) :
    ((nextCnt c)^[n] v).toNat = (v.toNat + n) % 2 ^ c.clkW := by
  induction n with
  | zero => exact (Nat.mod_eq_of_lt hv).symm
  | succ n ih => rw [Function.iterate_succ_apply', toNat_nextCnt hc, ih, Nat.mod_add_mod, Nat.add_assoc]

theorem State.iterate_tick (s : State) (n : Nat) :
    (State.tick^[n] s).cfg = s.cfg ∧ (State.tick^[n] s).clk.cnt = (nextCnt s.cfg)^[n] s.clk.cnt := by
  induction n with
  | zero => exact ⟨rfl, rfl⟩
  | succ n ih =>
    obtain ⟨cfg, cnt⟩ := ih
    rw [Function.iterate_succ_apply', Function.iterate_succ_apply', State.tick_cfg, State.tick_clk, cfg, cnt]
    exact ⟨rfl, rfl⟩

theorem toNat_sub_mod (hc : c.wellFormed = true) (x y : Word) :
    (x - y).toNat % 2 ^ c.clkW = (x.toNat + (2 ^ 32 - y.toNat)) % 2 ^ c.clkW := by
  rw [BitVec.toNat_sub, Nat.mod_mod_of_dvd _ (two_pow_clkW_dvd hc), Nat.add_comm]

/-- Settles O23: 2^32 is 0 modulo 2^`CLK_W`, so the 32-bit difference has the residue of `n`. -/
theorem elapsedTicks : Obligations.ElapsedTicks := by
  intro s n hc hv
  have wraps : 2 ^ 32 ≡ 0 [MOD 2 ^ s.cfg.clkW] := Nat.modEq_zero_iff_dvd.mpr (two_pow_clkW_dvd hc)
  have fits : s.clk.cnt.toNat ≤ 2 ^ 32 := s.clk.cnt.isLt.le
  have reached : (State.tick^[n] s).clk.cnt.toNat ≡ s.clk.cnt.toNat + n [MOD 2 ^ s.cfg.clkW] := by
    rw [(s.iterate_tick n).2, toNat_iterate_nextCnt hc hv]
    exact Nat.mod_modEq _ _
  rw [elapsed, cutCnt, toNat_ofNat_mod hc, toNat_sub_mod hc]
  show _ ≡ _ [MOD _]
  calc (State.tick^[n] s).clk.cnt.toNat + (2 ^ 32 - s.clk.cnt.toNat)
      ≡ s.clk.cnt.toNat + n + (2 ^ 32 - s.clk.cnt.toNat) [MOD 2 ^ s.cfg.clkW] := reached.add_right _
    _ = n + 2 ^ 32 := by omega
    _ ≡ n + 0 [MOD 2 ^ s.cfg.clkW] := wraps.add_left n

end

/-! Runs on a schedule (00_scope R10). -/

section
variable {s t u : State} {ms : List Move} {m : Move}

/-- The moves `ms`, made in this order, take `s` to `t`: no draw is taken, so the environment's other choices are as they were. -/
def State.Plays (ms : List Move) (s t : State) : Prop :=
  ∀ e : Env, Sys2Proof.core.run ms.length (s.under { e with moves := ms ++ e.moves }) = .next (t.under e)

theorem State.Plays.nil (s : State) : State.Plays [] s s := fun _ => rfl

theorem State.Plays.cons (h : ∀ e, (s.under e).act m = .next (u.under e)) (k : State.Plays ms u t) :
    State.Plays (m :: ms) s t := fun e => by
  have first : step (s.under { e with moves := m :: (ms ++ e.moves) }) = .next (u.under { e with moves := ms ++ e.moves }) :=
    h _
  exact (core_run_succ first).trans (k e)

theorem State.Plays.run (h : State.Plays ms s t) {rest : List Move} (hm : s.env.moves = ms ++ rest) {k : Nat}
    (hk : ms.length = k) : Sys2Proof.core.run k s = .next (t.under { s.env with moves := rest }) := by
  have same : s.under { s.env with moves := ms ++ rest } = s := by rw [← hm]; rfl
  subst hk
  simpa only [same] using h { s.env with moves := rest }

end

/-! The delays on their schedule (20_memory R85). -/

section
variable {i : Instr} {s t u : State} {es fs : List Event} {ms : List Move} {n : Word}

theorem State.goto_under (p : Phase) (e : Env) (s : State) : (s.under e).goto p = (s.goto p).under e := by
  simp only [State.goto, apply_ite (State.under e)]; rfl

theorem State.delayReturn_under (e : Env) (s : State) : (s.under e).delayReturn = s.delayReturn.under e := by
  rcases s.delayReturn_cases with ⟨hr, h⟩ | ⟨p, hr, h⟩ <;> rw [h]
  · exact State.delayReturn_of_done (s := s.under e) hr
  · simp only [State.delayReturn, State.under, hr]
    exact State.goto_under p e s

theorem State.duEntry_under (e : Env) (s : State) : (s.under e).duEntry = s.duEntry.under e := by
  simp only [State.duEntry, apply_ite (State.under e), State.delayReturn_under]; rfl

theorem State.duWait_under (e : Env) (s : State) : (s.under e).duWait = s.duWait.under e := by
  simp only [State.duWait, apply_ite (State.under e)]; rfl

theorem State.duClear_under (e : Env) (s : State) : (s.under e).duClear = s.duClear.under e := by
  simp only [State.duClear, apply_ite (State.under e), ← State.delayReturn_under]; rfl

theorem State.dmArm_under (e : Env) (s : State) : (s.under e).dmArm = s.dmArm.under e := by
  simp only [State.dmArm, apply_ite (State.under e), State.delayReturn_under]; rfl

theorem State.dmWait_under (e : Env) (s : State) : (s.under e).dmWait = s.dmWait.under e := by
  simp only [State.dmWait, apply_ite (State.under e)]; rfl

/-- The two delays. -/
def isDelay (i : Instr) : Bool :=
  match i with
  | .delayUs _ => true
  | .delayMs _ => true
  | _ => false

/-- The delays read no choice of the environment. -/
theorem exec_delay_under (hi : isDelay i = true) (h : exec i s = .next u) (e : Env) : exec i (s.under e) = .next (u.under e) := by
  cases i with
  | delayUs n =>
    simp only [exec, execDelayUs] at h
    split at h <;> rename_i hp <;> cases h
    · exact exec_of_decode (s := s.under e) _ hp
    · rw [exec_of_duEntry (s := s.under e) rfl hp, State.duEntry_under]
    · rw [exec_of_duWait (s := s.under e) rfl hp, State.duWait_under]
    · rw [exec_of_duClear (s := s.under e) rfl hp, State.duClear_under]
  | delayMs n =>
    simp only [exec, execDelayMs] at h
    split at h <;> rename_i hp <;> cases h
    · exact exec_of_decode (s := s.under e) _ hp
    · rw [exec_of_dmArm (s := s.under e) rfl hp, State.dmArm_under]
    · rw [exec_of_dmWait (s := s.under e) rfl hp, State.dmWait_under]
  | _ => cases hi

/-- SEQ is in the delay `i`, and free to step: it has not faulted (60_exceptions R212). -/
structure State.Serves (i : Instr) (s : State) : Prop where
  latched : s.Latched i
  unfaulted : s.faults.clockReinit = false
  delay : isDelay i = true

theorem State.Serves.next (r : s.Serves i) (cmd : u.cmd = s.cmd := by rfl) (faults : u.faults = s.faults := by rfl) : u.Serves i :=
  ⟨by rw [State.Latched, cmd]; exact r.latched, by rw [faults]; exact r.unfaulted, r.delay⟩

theorem State.Serves.plays_seq (r : s.Serves i) (hi : s.phase ≠ .idle) (h : exec i s = .next u) (k : State.Plays ms u t) :
    State.Plays (.seq :: ms) s t :=
  .cons (fun e => (State.Latched.seqStep_eq (s := s.under e) r.latched r.unfaulted hi).trans (exec_delay_under r.delay h e)) k

theorem State.plays_tick (run : s.clk.run = true) (k : State.Plays ms s.tick t) : State.Plays (.tick :: ms) s t :=
  .cons (fun e => congrArg Host.Outcome.next (if_pos (c := (s.under e).clk.run = true) run)) k

theorem State.plays_msExpire (armed : s.mst.armed = true) (k : State.Plays ms s.msExpire t) :
    State.Plays (.msExpire :: ms) s t :=
  .cons (fun e => congrArg Host.Outcome.next (if_pos (c := (s.under e).mst.armed = true) armed)) k

/-- From `s` to `t` the command completed with OK, after the events `es`, and changed no other result register and no memory. -/
structure State.CompletesAfter (es : List Event) (s t : State) : Prop where
  phase : t.phase = .idle
  res : t.res = { s.res with status := 0, statusWritten := true }
  mem : t.mem = s.mem
  hist : t.hist = s.hist ++ es ++ [.complete 0]

/-- Steps before, which appended `es` and changed no result register and no memory. -/
theorem State.CompletesAfter.cons (h : State.CompletesAfter fs u t) (res : u.res = s.res) (mem : u.mem = s.mem)
    (hist : u.hist = s.hist ++ es) : State.CompletesAfter (es ++ fs) s t :=
  ⟨h.phase, by rw [h.res, res], h.mem.trans mem, by rw [h.hist, hist, List.append_assoc s.hist]⟩

/-- A tick in the hold of `DU_WAIT`, and the flag read (40_clock R123). -/
def State.usRead (s : State) : State := { s.tick.emit .uifRd with phase := .duClear }

theorem State.Serves.plays_usRound (r : s.Serves (.delayUs n)) (hp : s.phase = .duWait) (run : s.clk.run = true)
    (hu : s.usRead.duClear = u) (k : State.Plays ms u t) : State.Plays (.tick :: .seq :: .seq :: ms) s t := by
  have read : exec (.delayUs n) s.tick = .next s.usRead :=
    (exec_of_duWait (s := s.tick) rfl hp).trans (congrArg _ (State.duWait_of_set (s := s.tick) rfl))
  have clear : exec (.delayUs n) s.usRead = .next u := (exec_of_duClear rfl rfl).trans (congrArg _ hu)
  have ticked : s.tick.Serves (.delayUs n) := r.next
  have again : s.usRead.Serves (.delayUs n) := r.next
  exact State.plays_tick run (ticked.plays_seq (by simp [hp]) read (again.plays_seq nofun clear k))

/-- `DU_WAIT` with `DREM = m + 1`, where a tick falls into each hold. -/
theorem State.Serves.plays_usRounds (r : s.Serves (.delayUs n)) (hp : s.phase = .duWait) (run : s.clk.run = true)
    (ret : s.work.ret = .done) {m : Nat} (left : s.work.drem.toNat = m + 1) :
    ∃ t, State.Plays (List.replicate (m + 1) [Move.tick, .seq, .seq]).flatten s t ∧
      State.CompletesAfter (List.replicate (m + 1) [Event.tick, .uifRd, .uifClr]).flatten s t ∧
      t.clk.cnt = (nextCnt s.cfg)^[m + 1] s.clk.cnt := by
  induction m generalizing s with
  | zero =>
    have last : s.work.drem = 1 := BitVec.eq_of_toNat_eq left
    exact ⟨_, r.plays_usRound hp run (State.duClear_of_one (s := s.usRead) last ret) (.nil _),
      ⟨rfl, rfl, rfl, by simp [State.usRead]⟩, rfl⟩
  | succ m ih =>
    have more : s.work.drem ≠ 1 := fun h => by rw [h] at left; cases left
    have counted := toNat_sub_one (x := s.work.drem) fun h => by rw [h] at left; cases left
    have round := State.duClear_of_ne_one (s := s.usRead) more
    obtain ⟨t, plays, done, cnt⟩ := ih (s := { s.usRead.uifClear with work.drem := s.work.drem - 1, phase := .duWait })
      r.next rfl run ret (Nat.succ.inj (counted.trans left))
    exact ⟨t, r.plays_usRound hp run round plays, done.cons rfl rfl (by simp [State.usRead]), cnt⟩

theorem seqEvents_usRounds (k : Nat) :
    seqEvents (List.replicate k [Event.tick, .uifRd, .uifClr]).flatten = (List.replicate k [Event.uifRd, .uifClr]).flatten := by
  induction k with
  | zero => rfl
  | succ k ih =>
    rw [List.replicate_succ, List.flatten_cons, seqEvents_append, ih]; rfl

/-- `DELAY_US` where a tick falls into every hold (40_clock R123, R124). -/
theorem State.Serves.plays_delayUs (r : s.Serves (.delayUs n)) (hp : s.phase = .decode) (run : s.clk.run = true) :
    ∃ t es, State.Plays (.seq :: .seq :: (List.replicate n.toNat [Move.tick, .seq, .seq]).flatten) s t ∧
      State.CompletesAfter es s t ∧ seqEvents es = delayUsEvents n.toNat ∧
      t.clk.cnt = (nextCnt s.cfg)^[n.toNat] s.clk.cnt := by
  have enters : exec (.delayUs n) s = .next (s.enterDelayUs n .done) := exec_of_decode _ hp
  have entered : (s.enterDelayUs n .done).Serves (.delayUs n) := r.next
  have entry : exec (.delayUs n) (s.enterDelayUs n .done) = .next (s.enterDelayUs n .done).duEntry := exec_of_duEntry rfl rfl
  have begins {ms t} (k : State.Plays ms (s.enterDelayUs n .done).duEntry t) : State.Plays (.seq :: .seq :: ms) s t :=
    r.plays_seq (by simp [hp]) enters (entered.plays_seq nofun entry k)
  cases hn : n.toNat with
  | zero =>
    have none : n = 0 := BitVec.eq_of_toNat_eq hn
    rw [State.duEntry_of_zero (s := s.enterDelayUs n .done) none rfl] at begins
    exact ⟨_, [], begins (.nil _), ⟨rfl, rfl, rfl, by simp⟩, rfl, rfl⟩
  | succ m =>
    have some : n ≠ 0 := fun h => by rw [h] at hn; cases hn
    rw [State.duEntry_of_ne_zero (s := s.enterDelayUs n .done) some] at begins
    obtain ⟨t, plays, done, cnt⟩ := State.Serves.plays_usRounds (n := n)
      (s := { (s.enterDelayUs n .done).uifClear with phase := .duWait }) r.next rfl run rfl hn
    exact ⟨t, [.uifClr] ++ _, begins plays, done.cons rfl rfl rfl, by rw [seqEvents_append, seqEvents_usRounds]; rfl, cnt⟩

/-- An arming, its expiry and the observation of it (40_clock R125). -/
theorem State.Serves.plays_msRound (r : s.Serves (.delayMs n)) (hp : s.phase = .dmArm) (some : s.work.mrem ≠ 0)
    (hu : { s.mstArm.msExpire with phase := .dmWait }.dmWait = u) (k : State.Plays ms u t) :
    State.Plays (.seq :: .msExpire :: .seq :: ms) s t := by
  have arm : exec (.delayMs n) s = .next { s.mstArm with phase := .dmWait } :=
    (exec_of_dmArm rfl hp).trans (congrArg _ (State.dmArm_of_ne_zero some))
  have read : exec (.delayMs n) { s.mstArm.msExpire with phase := .dmWait } = .next u :=
    (exec_of_dmWait rfl rfl).trans (congrArg _ hu)
  have expired : State.Serves (.delayMs n) { s.mstArm.msExpire with phase := .dmWait } := r.next
  exact r.plays_seq (by simp [hp]) arm (State.plays_msExpire rfl (expired.plays_seq nofun read k))

/-- `DM_ARM` with `MREM = m`, where an expiry falls into each hold. -/
theorem State.Serves.plays_msRounds (r : s.Serves (.delayMs n)) (hp : s.phase = .dmArm) (ret : s.work.ret = .done) {m : Nat}
    (left : s.work.mrem.toNat = m) :
    ∃ t, State.Plays ((List.replicate m [Move.seq, .msExpire, .seq]).flatten ++ [.seq]) s t ∧
      State.CompletesAfter (List.replicate m [Event.msArm, .msExpire, .msDoneRd]).flatten s t ∧ t.clk = s.clk := by
  induction m generalizing s with
  | zero =>
    have arm : exec (.delayMs n) s = .next (s.complete 0) :=
      (exec_of_dmArm rfl hp).trans (congrArg _ (State.dmArm_of_zero (BitVec.eq_of_toNat_eq left) ret))
    exact ⟨_, r.plays_seq (by simp [hp]) arm (.nil _), ⟨rfl, rfl, rfl, by simp⟩, rfl⟩
  | succ m ih =>
    have some : s.work.mrem ≠ 0 := fun h => by rw [h] at left; cases left
    have round := State.dmWait_of_done (s := { s.mstArm.msExpire with phase := .dmWait }) rfl
    obtain ⟨t, plays, done, clk⟩ := ih
      (s := { s.mstArm.msExpire.emit .msDoneRd with work.mrem := s.work.mrem - 1, phase := .dmArm })
      r.next rfl ret (Nat.succ.inj ((toNat_sub_one some).trans left))
    exact ⟨t, r.plays_msRound hp some round plays, done.cons rfl rfl (by simp), clk⟩

/-- `DELAY_MS` where an expiry falls into every hold (40_clock R125, R126). -/
theorem State.Serves.plays_delayMs (r : s.Serves (.delayMs n)) (hp : s.phase = .decode) :
    ∃ t, State.Plays (.seq :: ((List.replicate n.toNat [Move.seq, .msExpire, .seq]).flatten ++ [.seq])) s t ∧
      State.CompletesAfter (List.replicate n.toNat [Event.msArm, .msExpire, .msDoneRd]).flatten s t ∧ t.clk = s.clk := by
  have enters : exec (.delayMs n) s = .next (s.enterDelayMs n .done) := exec_of_decode _ hp
  have entered : (s.enterDelayMs n .done).Serves (.delayMs n) := r.next
  obtain ⟨t, plays, done, clk⟩ := entered.plays_msRounds rfl rfl rfl
  exact ⟨t, r.plays_seq (by simp [hp]) enters plays, done.cons (es := []) rfl rfl (by simp), clk⟩

/-- Settles O18, by induction on the rounds: tick, read and clear, or arming, expiry and read. -/
theorem delaysOnSchedule : Obligations.DelaysOnSchedule := by
  refine ⟨fun n s rest starts hf run hc hv hm => ?_, fun n s rest starts hf hm => ?_⟩
  · have serves : s.Serves (.delayUs n) := ⟨starts.2, hf, rfl⟩
    obtain ⟨t, es, plays, done, events, cnt⟩ := serves.plays_delayUs starts.1 run
    have length : (Move.seq :: .seq :: (List.replicate n.toNat [Move.tick, .seq, .seq]).flatten).length = 2 + 3 * n.toNat := by
      simp +arith [Nat.mul_comm]
    refine ⟨_, plays.run hm length, done.phase, rfl, done.res, done.mem, ?_, ?_⟩
    · rw [← toNat_iterate_nextCnt hc hv, ← cnt]; rfl
    · show seqEvents (t.hist.drop s.hist.length) = _
      rw [done.hist, List.append_assoc, List.drop_left, seqEvents_append, events]; rfl
  · have serves : s.Serves (.delayMs n) := ⟨starts.2, hf, rfl⟩
    obtain ⟨t, plays, done, clk⟩ := serves.plays_delayMs starts.1
    have length : (Move.seq :: ((List.replicate n.toNat [Move.seq, .msExpire, .seq]).flatten ++ [.seq])).length =
        2 + 3 * n.toNat := by
      simp +arith [Nat.mul_comm]
    exact ⟨_, plays.run hm length, done.phase, rfl, done.res, done.mem, clk, done.hist⟩

end

end Sys2Proof.Machine
end

/-! ### What the clock commands leave unchanged (O51) -/

section
namespace Sys2Proof.Machine

section
variable {s t : State} {n : Word}

/-- What a SEQ step of any clock command leaves (40_clock R121 to R126, 10_state R26). -/
structure State.ClockFrame (s t : State) : Prop where
  mem : t.mem = s.mem := by rfl
  per : t.per = s.per := by rfl
  trig : t.trig = s.trig := by rfl
  cmd : t.cmd = s.cmd := by rfl
  cfg : t.cfg = s.cfg := by rfl
  hostData : t.hostData = s.hostData := by rfl
  moves : t.env.moves = s.env.moves := by rfl
  reentrant : t.faults.reentrant = s.faults.reentrant := by rfl
  unwrittenRead : t.faults.unwrittenRead = s.faults.unwrittenRead := by rfl
  rngValid : t.res.rngValid = s.res.rngValid := by rfl
  rngDuration : t.res.rngDuration = s.res.rngDuration := by rfl
  rngDistance : t.res.rngDistance = s.res.rngDistance := by rfl
  rngWritten : t.res.rngWritten = s.res.rngWritten := by rfl

/-- What a SEQ step of either delay leaves besides: a delay that returns into a poll phase clears `POLLS` (41_i2c R140). -/
structure State.DelayFrame (s t : State) : Prop extends State.ClockFrame s t where
  value : t.res.value = s.res.value := by rfl
  valueWritten : t.res.valueWritten = s.res.valueWritten := by rfl
  faults : t.faults = s.faults := by rfl
  cnt : t.clk.cnt = s.clk.cnt := by rfl
  run : t.clk.run = s.clk.run := by rfl
  env : t.env = s.env := by rfl
  polls : t.phase.isPoll = false → t.work.polls = s.work.polls

/-- The clauses all clock commands share, before a command's own. -/
theorem State.ClockFrame.and_own {P : Prop} (f : s.ClockFrame t) (own : P) :
    (∀ a, Memory.read t.mem a = Memory.read s.mem a) ∧ t.per = s.per ∧ t.trig = s.trig ∧ t.cmd = s.cmd ∧ t.cfg = s.cfg ∧
    t.hostData = s.hostData ∧ t.env.moves = s.env.moves ∧ t.faults.reentrant = s.faults.reentrant ∧
    t.faults.unwrittenRead = s.faults.unwrittenRead ∧ t.res.rngValid = s.res.rngValid ∧
    t.res.rngDuration = s.res.rngDuration ∧ t.res.rngDistance = s.res.rngDistance ∧ t.res.rngWritten = s.res.rngWritten ∧ P :=
  ⟨fun _ => by rw [f.mem], f.per, f.trig, f.cmd, f.cfg, f.hostData, f.moves, f.reentrant, f.unwrittenRead, f.rngValid,
    f.rngDuration, f.rngDistance, f.rngWritten, own⟩

/-- All that the end of a delay can change. -/
theorem State.delayReturn_changes (u : State) : ∃ (p : Phase) (x : Nat) (c : Code) (b : Bool) (h : List Event),
    u.delayReturn = { u with phase := p, work.polls := x, res.status := c, res.statusWritten := b, hist := h } ∧
      (p.isPoll = false → x = u.work.polls) := by
  rcases u.delayReturn_cases with ⟨_, e⟩ | ⟨p, _, e⟩ <;> rw [e]
  · exact ⟨.idle, _, 0, true, _, rfl, fun _ => rfl⟩
  · unfold State.goto
    split
    · next enters => exact ⟨p, 0, _, _, _, rfl, fun hp => by simp [hp] at enters⟩
    · exact ⟨p, _, _, _, _, rfl, fun _ => rfl⟩

theorem execInitClock_frame (h : execInitClock s = .next t) :
    s.ClockFrame t ∧ t.res.value = s.res.value ∧ t.res.valueWritten = s.res.valueWritten ∧ t.mst = s.mst ∧ t.work = s.work := by
  unfold execInitClock at h
  split at h <;> cases h
  · exact ⟨{}, rfl, rfl, rfl, rfl⟩
  · unfold State.ckInit
    split
    · exact ⟨{}, rfl, rfl, rfl, rfl⟩
    · have moves : s.dropDraw.env.moves = s.env.moves := by unfold State.dropDraw; split <;> rfl
      refine ⟨?_, ?_, ?_, ?_, ?_⟩
      · constructor <;> simp [moves]
      all_goals simp

theorem execClockNow_frame (h : execClockNow s = .next t) :
    s.ClockFrame t ∧ t.faults = s.faults ∧ t.clk = s.clk ∧ t.env = s.env ∧ t.mst = s.mst ∧ t.work = s.work := by
  unfold execClockNow at h
  split at h <;> cases h
  · exact ⟨{}, rfl, rfl, rfl, rfl, rfl⟩
  · exact ⟨{}, rfl, rfl, rfl, rfl, rfl⟩

theorem execDelayUs_frame (h : execDelayUs n s = .next t) : s.DelayFrame t ∧ t.mst = s.mst ∧
    t.work = { s.work with drem := t.work.drem, ret := t.work.ret, polls := t.work.polls } := by
  unfold execDelayUs at h
  split at h <;> cases h
  · exact ⟨{ polls := fun _ => rfl }, rfl, rfl⟩
  · rcases s.duEntry_cases with ⟨_, e⟩ | ⟨_, e⟩ <;> rw [e]
    · obtain ⟨p, x, c, b, hist, e, polls⟩ := s.delayReturn_changes
      rw [e]
      exact ⟨{ polls := polls }, rfl, rfl⟩
    · exact ⟨{ polls := fun _ => rfl }, rfl, rfl⟩
  · rcases s.duWait_cases with ⟨_, e⟩ | ⟨_, e⟩ <;> rw [e]
    · exact ⟨{ polls := fun _ => rfl }, rfl, rfl⟩
    · exact ⟨{ polls := fun _ => rfl }, rfl, rfl⟩
  · rcases s.duClear_cases with ⟨_, e⟩ | ⟨_, e⟩ <;> rw [e]
    · obtain ⟨p, x, c, b, hist, e, polls⟩ := State.delayReturn_changes { s.uifClear with work.drem := s.work.drem - 1 }
      rw [e]
      exact ⟨{ polls := polls }, rfl, rfl⟩
    · exact ⟨{ polls := fun _ => rfl }, rfl, rfl⟩

theorem execDelayMs_frame (h : execDelayMs n s = .next t) : s.DelayFrame t ∧ t.clk.uif = s.clk.uif ∧
    t.work = { s.work with mrem := t.work.mrem, ret := t.work.ret, polls := t.work.polls } := by
  unfold execDelayMs at h
  split at h <;> cases h
  · exact ⟨{ polls := fun _ => rfl }, rfl, rfl⟩
  · rcases s.dmArm_cases with ⟨_, e⟩ | ⟨_, e⟩ <;> rw [e]
    · obtain ⟨p, x, c, b, hist, e, polls⟩ := s.delayReturn_changes
      rw [e]
      exact ⟨{ polls := polls }, rfl, rfl⟩
    · exact ⟨{ polls := fun _ => rfl }, rfl, rfl⟩
  · rcases s.dmWait_cases with ⟨_, e⟩ | ⟨_, e⟩ <;> rw [e]
    · exact ⟨{ polls := fun _ => rfl }, rfl, rfl⟩
    · exact ⟨{ polls := fun _ => rfl }, rfl, rfl⟩

/-- Settles O51, from the frame of each command. -/
theorem frameClock : Obligations.FrameClock := by
  intro i s t e hi
  rcases hi with rfl | rfl | ⟨n, rfl⟩ | ⟨n, rfl⟩
  · obtain ⟨f, value, written, mst, work⟩ := execInitClock_frame e
    refine f.and_own ⟨fun _ => ⟨value, written⟩, fun h => absurd rfl h, fun _ => mst, ?_, fun _ => by rw [work], work⟩
    rintro (h | ⟨n, h⟩) <;> cases h
  · obtain ⟨f, faults, clk, env, mst, work⟩ := execClockNow_frame e
    exact f.and_own ⟨fun h => absurd rfl h, fun _ => ⟨faults, by rw [clk], by rw [clk], env⟩, fun _ => mst,
      fun _ => by rw [clk], fun _ => by rw [work], work⟩
  · obtain ⟨f, mst, work⟩ := execDelayUs_frame e
    refine f.and_own ⟨fun _ => ⟨f.value, f.valueWritten⟩, fun _ => ⟨f.faults, f.cnt, f.run, f.env⟩, fun _ => mst, ?_,
      f.polls, work⟩
    rintro (h | ⟨n, h⟩) <;> cases h
  · obtain ⟨f, uif, work⟩ := execDelayMs_frame e
    exact f.and_own ⟨fun _ => ⟨f.value, f.valueWritten⟩, fun _ => ⟨f.faults, f.cnt, f.run, f.env⟩,
      fun h => absurd rfl (h n), fun _ => uif, f.polls, work⟩

end

end Sys2Proof.Machine
end

/-! ### The I2C commands, phase by phase (O26 to O30) -/

section
namespace Sys2Proof.Machine

section
variable {i : Instr} {s t u : State} {p : Phase}

/-- Entering a poll phase from another phase clears `POLLS` (41_i2c R140). -/
theorem State.goto_of_poll (hp : p.isPoll = true) (hs : p ≠ s.phase) : s.goto p = { s with phase := p, work.polls := 0 } := by
  simp [State.goto, hp, hs]

theorem State.goto_of_not_poll (hp : p.isPoll = false) : s.goto p = { s with phase := p } := by simp [State.goto, hp]

theorem State.begin_of_isI2c (hi : i.isI2c = true) (hp : s.phase = .decode) :
    s.begin i = { s with phase := .i2IdlePoll, work.polls := 0 } := by
  have enters : s.goto .i2IdlePoll = { s with phase := .i2IdlePoll, work.polls := 0 } := State.goto_of_poll rfl (by simp [hp])
  cases i with
  | i2cWriteByte addr data => exact enters
  | i2cWriteBytes addr count buf => exact enters
  | i2cReadBytes addr reg count buf => exact enters
  | _ => cases hi

/-- `WaitIdle` is the first step of every I2C command (30_encoding R104). -/
theorem exec_of_decode_i2c (hi : i.isI2c = true) (hp : s.phase = .decode) :
    exec i s = .next { s with phase := .i2IdlePoll, work.polls := 0 } := by
  rw [exec_of_decode i hp, State.begin_of_isI2c hi hp]

theorem exec_of_stopfClear (hi : i.isI2c = true) (hp : s.phase = .i2StopfClear) : exec i s = .next s.stopfClear := by
  cases i with
  | i2cWriteByte addr data => simp [exec, execI2cWriteByte, hp]
  | i2cWriteBytes addr count buf => simp [exec, execI2cWriteBytes, hp]
  | i2cReadBytes addr reg count buf => simp [exec, execI2cReadBytes, hp]
  | _ => cases hi

theorem exec_of_abStop (hi : i.isI2c = true) (hp : s.phase = .i2AbStop) : exec i s = .next s.abortStop := by
  cases i with
  | i2cWriteByte addr data => simp [exec, execI2cWriteByte, hp]
  | i2cWriteBytes addr count buf => simp [exec, execI2cWriteBytes, hp]
  | i2cReadBytes addr reg count buf => simp [exec, execI2cReadBytes, hp]
  | _ => cases hi

theorem exec_of_abPoll (hi : i.isI2c = true) (hp : s.phase = .i2AbPoll) : exec i s = .next s.abortPoll := by
  cases i with
  | i2cWriteByte addr data => simp [exec, execI2cWriteByte, hp]
  | i2cWriteBytes addr count buf => simp [exec, execI2cWriteBytes, hp]
  | i2cReadBytes addr reg count buf => simp [exec, execI2cReadBytes, hp]
  | _ => cases hi

theorem exec_of_abClear (hi : i.isI2c = true) (hp : s.phase = .i2AbClear) : exec i s = .next s.abortClear := by
  cases i with
  | i2cWriteByte addr data => simp [exec, execI2cWriteByte, hp]
  | i2cWriteBytes addr count buf => simp [exec, execI2cWriteBytes, hp]
  | i2cReadBytes addr reg count buf => simp [exec, execI2cReadBytes, hp]
  | _ => cases hi

theorem State.stopfClear_eq (s : State) : s.stopfClear = { s with
    per.clear := 0x00000010, hist := s.hist ++ [.pWr .clear 0x00000010, .complete 0],
    res.status := 0, res.statusWritten := true, phase := .idle } := by
  simp [State.stopfClear, State.complete, State.pwrite, PerRegs.set, clearWord, Status.code]

theorem State.abortClear_eq (s : State) : s.abortClear = { s with
    per.clear := 0x00000010, hist := s.hist ++ [.pWr .clear 0x00000010, .complete s.work.err],
    res.status := s.work.err, res.statusWritten := true, phase := .idle } := by
  simp [State.abortClear, State.complete, State.pwrite, PerRegs.set, clearWord]

theorem State.pread_status_eq (s : State) : s.pread .status = { s.dropDraw with
    per.status := s.draw.word, hist := s.hist ++ [.pRd .status s.draw.word] } := by
  simp [State.pread, PerRegs.set, State.preadValue]

theorem State.polled_eq (s : State) : s.polled = { s.dropDraw with
    per.status := s.draw.word, hist := s.hist ++ [.pRd .status s.draw.word], work.polls := s.work.polls + 1 } := by
  rw [State.polled, State.pread_status_eq]

/-- Settles O27, by the three outcomes of the abort's poll. -/
theorem abortSteps : Obligations.AbortSteps := by
  refine fun i s hi => ⟨fun hp => exec_of_abStop hi hp, fun hp seen => ?_, fun hp unseen => ?_, fun hp => ?_⟩
  · rw [exec_of_abPoll hi hp]
    rcases s.abortPoll_cases with ⟨_, e⟩ | ⟨h, _, _⟩ | ⟨h, _, _⟩
    · rw [e, State.pread_status_eq]
    · exact absurd (h.symm.trans seen) (by decide)
    · exact absurd (h.symm.trans seen) (by decide)
  · rw [exec_of_abPoll hi hp]
    rcases s.abortPoll_cases with ⟨h, _⟩ | ⟨_, last, e⟩ | ⟨_, more, e⟩
    · exact absurd (h.symm.trans unseen) (by decide)
    · rw [e, if_pos last, State.polled_eq]
    · rw [e, if_neg more, State.polled_eq]
  · rw [exec_of_abClear hi hp, State.abortClear_eq]

end

section
variable {s : State} {addr : Addr7} {data reg count : Byte} {buf : Word}

/-- The loop test on `IDX` in 9 bits is that on its value. -/
theorem lt_setWidth_iff (x : BitVec 9) (c : Byte) : x < c.setWidth 9 ↔ x.toNat < c.toNat := by
  bv_omega

/-- The loop goes on or ends, in either case at a poll phase. -/
theorem State.goto_ite {c : Prop} [Decidable c] {p q : Phase} (hp : p.isPoll = true) (hq : q.isPoll = true) (hps : p ≠ s.phase)
    (hqs : q ≠ s.phase) : s.goto (if c then p else q) = { s with phase := if c then p else q, work.polls := 0 } := by
  split
  · exact State.goto_of_poll hp hps
  · exact State.goto_of_poll hq hqs

/-- Settles O28: each arm of the meaning, with the entry of its next phase. -/
theorem writeByteSteps : Obligations.WriteByteSteps := by
  refine fun addr data s => ⟨fun hp => exec_of_decode_i2c rfl hp, fun hp => ?_, fun hp => ?_, fun hp => ?_, fun hp => ?_⟩
  · simp only [exec, execI2cWriteByte, hp]
    rw [State.goto_of_poll rfl (by simp [hp])]; rfl
  · simp only [exec, execI2cWriteByte, hp]
    rw [State.goto_of_poll rfl (by simp [hp])]; rfl
  · simp only [exec, execI2cWriteByte, hp]
    rw [State.goto_of_poll rfl (by simp [hp])]; rfl
  · rw [exec_of_stopfClear rfl hp, State.stopfClear_eq]

/-- Settles O29: each arm of the meaning, with the loop test and the entry of its next phase. -/
theorem writeBytesSteps : Obligations.WriteBytesSteps := by
  refine fun addr count buf s => ⟨fun hp => exec_of_decode_i2c rfl hp, fun hp => ?_, fun hp admitted => ?_, fun hp => ?_,
    fun hp => ?_, fun hp => ?_⟩
  · simp only [exec, execI2cWriteBytes, hp, State.startWrite]
    rw [State.goto_ite rfl rfl (by simp [hp]) (by simp [hp])]; rfl
  · simp only [exec, execI2cWriteBytes, hp, State.txFetch]
    exact if_pos admitted
  · simp only [exec, execI2cWriteBytes, hp, State.txWrite, lt_setWidth_iff]
    rw [State.goto_ite rfl rfl (by simp [hp]) (by simp [hp])]; rfl
  · simp only [exec, execI2cWriteBytes, hp]
    rw [State.goto_of_poll rfl (by simp [hp])]; rfl
  · rw [exec_of_stopfClear rfl hp, State.stopfClear_eq]

/-- Settles O30: each arm of the meaning, with the loop test and the entry of its next phase. -/
theorem readBytesSteps : Obligations.ReadBytesSteps := by
  refine fun addr reg count buf s => ⟨fun hp => exec_of_decode_i2c rfl hp, fun hp => ?_, fun hp => ?_, fun hp => ?_,
    fun hp => ?_, fun hp admitted => ?_, fun hp => ?_⟩
  · simp only [exec, execI2cReadBytes, hp]
    rw [State.goto_of_poll rfl (by simp [hp])]; rfl
  · simp only [exec, execI2cReadBytes, hp]
    rw [State.goto_of_poll rfl (by simp [hp])]; rfl
  · simp only [exec, execI2cReadBytes, hp, State.restart]
    rw [State.goto_ite rfl rfl (by simp [hp]) (by simp [hp])]; rfl
  · simp only [exec, execI2cReadBytes, hp]
    simp [State.rxRead, State.pread, PerRegs.set, State.preadValue, rxdrByte]
  · simp only [exec, execI2cReadBytes, hp, State.rxStore, lt_setWidth_iff]
    rw [if_pos (show s.admitted (bufferAddress buf s.work.idx) = true from admitted),
      State.goto_ite rfl rfl (by simp [hp]) (by simp [hp])]
    rfl
  · rw [exec_of_stopfClear rfl hp, State.stopfClear_eq]

end

/-! The wait step (41_i2c R140). -/

section
variable {i : Instr} {s t u : State} {w : Wait}

/-- The failure of a wait, from the state after its last poll. -/
theorem State.waitFail_eq (w : Wait) (s : State) : s.polled.waitFail w = if w = .idle then { s.dropDraw with
      per.status := s.draw.word, hist := s.hist ++ [.pRd .status s.draw.word, .complete 1],
      work.polls := s.work.polls + 1, res.status := 1, res.statusWritten := true, phase := .idle }
    else { s.dropDraw with
      per.status := s.draw.word, hist := s.hist ++ [.pRd .status s.draw.word], work.polls := s.work.polls + 1,
      work.err := if w = .tx ∨ w = .rx then 2 else 3, phase := .i2AbStop } := by
  rw [State.polled_eq]
  cases w with
  | idle => simp [State.waitFail, Wait.aborts, State.complete, Wait.err, Status.code]
  | _ => rfl

/-- From `s`, the step ends in no poll phase but the one it began in, unless with `POLLS` cleared (41_i2c R140). -/
def State.EntersCleared (s t : State) : Prop := t.phase.isPoll = true → t.phase ≠ s.phase → t.work.polls = 0

theorem State.EntersCleared.of_not_poll (h : t.phase.isPoll = false) : s.EntersCleared t := fun poll => by
  rw [h] at poll; cases poll

theorem State.EntersCleared.of_same (h : t.phase = s.phase) : s.EntersCleared t := fun _ ne => absurd h ne

theorem State.EntersCleared.goto (h : u.phase = s.phase) (p : Phase) : s.EntersCleared (u.goto p) := by
  intro poll ne
  rw [State.goto_phase] at poll ne
  rw [State.goto_of_poll poll (h ▸ ne)]

theorem State.EntersCleared.delayReturn (h : u.phase = s.phase) : s.EntersCleared u.delayReturn := by
  rcases u.delayReturn_cases with ⟨_, e⟩ | ⟨p, _, e⟩ <;> rw [e]
  · exact .of_not_poll rfl
  · exact .goto h p

theorem State.waitStep_entersCleared {n : Phase} (hp : s.phase = w.phase) : s.EntersCleared (s.waitStep w n) := by
  rcases State.waitStep_cases (n := n) hp with ⟨_, e⟩ | ⟨_, _, e⟩ | ⟨_, _, _, e⟩ | ⟨_, _, _, e⟩ <;> rw [e]
  · exact .goto (by simp) n
  · exact .of_same (by simp)
  · refine .of_not_poll ?_
    cases w <;> rfl
  · exact .of_same (by simp)

theorem State.abortPoll_entersCleared (hp : s.phase = .i2AbPoll) : s.EntersCleared s.abortPoll := by
  rcases s.abortPoll_cases with ⟨_, e⟩ | ⟨_, _, e⟩ | ⟨_, _, e⟩ <;> rw [e]
  · exact .of_not_poll rfl
  · exact .of_not_poll rfl
  · exact .of_same hp.symm

end

/-! The accesses of the I2C commands between their waits (41_i2c R145, R147, R150). -/

/-- What a SEQ step with an access leads to: the event it appends, and `PHASE`, `IDX` and `BYTE` after it. -/
structure I2cAccess where
  event : Event
  next : Phase
  idx : BitVec 9
  byte : Byte

/-- The access command `i` makes in its step from `s`, where that is neither a poll nor the end of the command. -/
def i2cAccess (i : Instr) (s : State) : Option I2cAccess :=
  match i, s.phase with
  | .i2cWriteByte addr _, .i2Start => some ⟨.pWr .ctrl (ctrlWord addr 1 false false), .i2TxPoll, s.work.idx, s.work.byte⟩
  | .i2cWriteByte _ data, .i2TxWrite => some ⟨.pWr .txdr (txdrWord data), .i2TcPoll, s.work.idx, s.work.byte⟩
  | .i2cWriteByte _ _, .i2Stop => some ⟨.pStop, .i2StopfPoll, s.work.idx, s.work.byte⟩
  | .i2cWriteBytes addr count _, .i2Start =>
      some ⟨.pWr .ctrl (ctrlWord addr count false false), if count = 0 then .i2TcPoll else .i2TxPoll, 0, s.work.byte⟩
  | .i2cWriteBytes _ _ buf, .i2TxFetch =>
      some ⟨.mRd (bufferAddress buf s.work.idx) (s.memByte (bufferAddress buf s.work.idx)), .i2TxWrite, s.work.idx,
        s.memByte (bufferAddress buf s.work.idx)⟩
  | .i2cWriteBytes _ count _, .i2TxWrite =>
      some ⟨.pWr .txdr (txdrWord s.work.byte), if (s.work.idx + 1).toNat < count.toNat then .i2TxPoll else .i2TcPoll,
        s.work.idx + 1, s.work.byte⟩
  | .i2cWriteBytes _ _ _, .i2Stop => some ⟨.pStop, .i2StopfPoll, s.work.idx, s.work.byte⟩
  | .i2cReadBytes addr _ _ _, .i2Start => some ⟨.pWr .ctrl (ctrlWord addr 1 false false), .i2TxPoll, s.work.idx, s.work.byte⟩
  | .i2cReadBytes _ reg _ _, .i2TxWrite => some ⟨.pWr .txdr (txdrWord reg), .i2TcPoll, s.work.idx, s.work.byte⟩
  | .i2cReadBytes addr _ count _, .i2Restart =>
      some ⟨.pWr .ctrl (ctrlWord addr count true true), if count = 0 then .i2StopfPoll else .i2RxPoll, 0, s.work.byte⟩
  | .i2cReadBytes _ _ _ _, .i2RxRead => some ⟨.pRd .rxdr s.preadValue, .i2RxStore, s.work.idx, rxdrByte s.preadValue⟩
  | .i2cReadBytes _ _ count buf, .i2RxStore =>
      some ⟨.mWr (bufferAddress buf s.work.idx) s.work.byte,
        if (s.work.idx + 1).toNat < count.toNat then .i2RxPoll else .i2StopfPoll, s.work.idx + 1, s.work.byte⟩
  | _, _ => none

/-- What a SEQ step of an I2C command leaves (41_i2c R145, R147, R150, 60_exceptions R225). -/
structure State.I2cFrame (s t : State) : Prop where
  clk : t.clk = s.clk := by rfl
  mst : t.mst = s.mst := by rfl
  trig : t.trig = s.trig := by rfl
  faults : t.faults = s.faults := by rfl
  cmd : t.cmd = s.cmd := by rfl
  cfg : t.cfg = s.cfg := by rfl
  hostData : t.hostData = s.hostData := by rfl
  moves : t.env.moves = s.env.moves := by rfl
  res : t.res = { s.res with status := t.res.status, statusWritten := t.res.statusWritten } := by rfl
  work : t.work = { s.work with idx := t.work.idx, polls := t.work.polls, err := t.work.err, byte := t.work.byte } := by rfl

/-- From `s` to `t` a step made the access `y`, which takes a draw exactly when it is a read of the peripheral. -/
structure State.Accesses (s : State) (y : I2cAccess) (t : State) : Prop where
  hist : t.hist = s.hist ++ [y.event] := by rfl
  phase : t.phase = y.next := by rfl
  idx : t.work.idx = y.idx := by rfl
  byte : t.work.byte = y.byte := by rfl
  polls : y.next.isPoll = true → t.work.polls = 0
  env : t.env = if y.event = .pRd .rxdr s.preadValue then s.dropDraw.env else s.env := by rfl
  frame : s.I2cFrame t

section
variable {i : Instr} {s t u : State} {w : Wait} {y : I2cAccess}

theorem State.I2cFrame.refl (s : State) : s.I2cFrame s := {}

theorem State.I2cFrame.trans (h : s.I2cFrame u) (k : u.I2cFrame t) : s.I2cFrame t where
  clk := k.clk.trans h.clk
  mst := k.mst.trans h.mst
  trig := k.trig.trans h.trig
  faults := k.faults.trans h.faults
  cmd := k.cmd.trans h.cmd
  cfg := k.cfg.trans h.cfg
  hostData := k.hostData.trans h.hostData
  moves := k.moves.trans h.moves
  res := by rw [k.res, h.res]
  work := by rw [k.work, h.work]

theorem State.dropDraw_moves (s : State) : s.dropDraw.env.moves = s.env.moves := by
  unfold State.dropDraw; split <;> rfl

theorem State.dropDraw_i2cFrame (s : State) : s.I2cFrame s.dropDraw := by
  constructor <;> simp [State.dropDraw_moves]

/-- `PHASE`, the peripheral registers, `HIST`, memory and the working registers of the family are free. -/
theorem State.pread_i2cFrame (r : PReg) (s : State) : s.I2cFrame (s.pread r) := { s.dropDraw_i2cFrame with }

theorem State.polled_i2cFrame (s : State) : s.I2cFrame s.polled := (s.pread_i2cFrame .status).trans {}

theorem State.goto_i2cFrame (p : Phase) (s : State) : s.I2cFrame (s.goto p) := by
  unfold State.goto; split <;> exact {}

theorem State.waitFail_i2cFrame (w : Wait) (s : State) : s.I2cFrame (s.waitFail w) := by
  unfold State.waitFail; split <;> exact {}

theorem State.waitStep_i2cFrame {n : Phase} (hp : s.phase = w.phase) : s.I2cFrame (s.waitStep w n) := by
  rcases State.waitStep_cases (n := n) hp with ⟨_, e⟩ | ⟨_, _, e⟩ | ⟨_, _, _, e⟩ | ⟨_, _, _, e⟩ <;> rw [e]
  · exact (s.pread_i2cFrame _).trans (State.goto_i2cFrame _ _)
  · exact s.pread_i2cFrame _
  · exact s.polled_i2cFrame.trans (State.waitFail_i2cFrame _ _)
  · exact s.polled_i2cFrame

theorem State.abortPoll_i2cFrame (s : State) : s.I2cFrame s.abortPoll := by
  rcases s.abortPoll_cases with ⟨_, e⟩ | ⟨_, _, e⟩ | ⟨_, _, e⟩ <;> rw [e]
  · exact (s.pread_i2cFrame .status).trans {}
  · exact s.polled_i2cFrame.trans {}
  · exact s.polled_i2cFrame.trans {}

/-- The access reads or writes the byte of memory at `a`. -/
def I2cAccess.Touches (y : I2cAccess) (a : Word) : Prop := ∃ v, y.event = .mRd a v ∨ y.event = .mWr a v

/-- A step of the command at an access makes it, or is stuck at a byte that is not admitted (20_memory R69). -/
theorem exec_of_access (h : i2cAccess i s = some y) :
    (∃ a, y.Touches a ∧ admits s.cfg a = false ∧ exec i s = .fault (.hmemNotAdmitted a)) ∨
    ∃ t, exec i s = .next t ∧ s.Accesses y t := by
  unfold i2cAccess at h
  split at h <;> cases h <;> rename_i hp
  case h_1 addr data =>
    obtain ⟨-, start, -⟩ := writeByteSteps addr data s
    exact .inr ⟨_, start hp, { polls := fun _ => rfl, frame := {} }⟩
  case h_2 addr data =>
    obtain ⟨-, -, write, -⟩ := writeByteSteps addr data s
    exact .inr ⟨_, write hp, { polls := fun _ => rfl, frame := {} }⟩
  case h_3 addr data =>
    obtain ⟨-, -, -, stop, -⟩ := writeByteSteps addr data s
    exact .inr ⟨_, stop hp, { polls := fun _ => rfl, frame := {} }⟩
  case h_4 addr count buf =>
    obtain ⟨-, start, -⟩ := writeBytesSteps addr count buf s
    exact .inr ⟨_, start hp, { polls := fun _ => rfl, frame := {} }⟩
  case h_5 addr count buf =>
    obtain ⟨-, -, fetch, -⟩ := writeBytesSteps addr count buf s
    cases ha : admits s.cfg (bufferAddress buf s.work.idx) with
    | true => exact .inr ⟨_, fetch hp ha, { polls := nofun, frame := {} }⟩
    | false => exact .inl ⟨_, ⟨_, .inl rfl⟩, ha, bufferByteNotAdmitted.1 addr count buf s hp ha⟩
  case h_6 addr count buf =>
    obtain ⟨-, -, -, write, -⟩ := writeBytesSteps addr count buf s
    exact .inr ⟨_, write hp, { polls := fun _ => rfl, frame := {} }⟩
  case h_7 addr count buf =>
    obtain ⟨-, -, -, -, stop, -⟩ := writeBytesSteps addr count buf s
    exact .inr ⟨_, stop hp, { polls := fun _ => rfl, frame := {} }⟩
  case h_8 addr reg count buf =>
    obtain ⟨-, start, -⟩ := readBytesSteps addr reg count buf s
    exact .inr ⟨_, start hp, { polls := fun _ => rfl, frame := {} }⟩
  case h_9 addr reg count buf =>
    obtain ⟨-, -, write, -⟩ := readBytesSteps addr reg count buf s
    exact .inr ⟨_, write hp, { polls := fun _ => rfl, frame := {} }⟩
  case h_10 addr reg count buf =>
    obtain ⟨-, -, -, restart, -⟩ := readBytesSteps addr reg count buf s
    exact .inr ⟨_, restart hp, { polls := fun _ => rfl, frame := {} }⟩
  case h_11 addr reg count buf =>
    obtain ⟨-, -, -, -, read, -⟩ := readBytesSteps addr reg count buf s
    exact .inr ⟨_, read hp, { polls := nofun, idx := by simp, env := (if_pos rfl).symm,
                              frame := s.dropDraw_i2cFrame.trans {} }⟩
  case h_12 addr reg count buf =>
    obtain ⟨-, -, -, -, -, store, -⟩ := readBytesSteps addr reg count buf s
    cases ha : admits s.cfg (bufferAddress buf s.work.idx) with
    | true => exact .inr ⟨_, store hp ha, { polls := fun _ => rfl, frame := {} }⟩
    | false => exact .inl ⟨_, ⟨_, .inr rfl⟩, ha, bufferByteNotAdmitted.2 addr reg count buf s hp ha⟩

/-- The kinds of points of an I2C command (41_i2c R140, R142, R145, R147, R150). -/
inductive I2cPhase (i : Instr) (s : State) : Prop
  | decode (hp : s.phase = .decode)
  | wait (w : Wait) (n : Phase) (hn : i.waitNext w = some n) (hp : s.phase = w.phase)
  | access (y : I2cAccess) (h : i2cAccess i s = some y)
  | clear (hp : s.phase = .i2StopfClear)
  | abStop (hp : s.phase = .i2AbStop)
  | abPoll (hp : s.phase = .i2AbPoll)
  | abClear (hp : s.phase = .i2AbClear)
  | stray (hp : i.hasPhase s.phase = false) (h : exec i s = .fault (.strayPhase s.phase))

theorem I2cPhase.of_isSome (h : (i2cAccess i s).isSome = true) : I2cPhase i s :=
  let ⟨y, hy⟩ := Option.isSome_iff_exists.mp h
  .access y hy

theorem i2cPhase_of_isI2c (hi : i.isI2c = true) (s : State) : I2cPhase i s := by
  obtain ⟨r, h⟩ : ∃ r, exec i s = r := ⟨_, rfl⟩
  have arm := h
  cases i with
  | i2cWriteByte addr data =>
    simp only [exec, execI2cWriteByte] at arm
    split at arm <;> rename_i hp
    · exact .decode hp
    · exact .wait .idle _ rfl hp
    · exact .of_isSome (by simp [i2cAccess, hp])
    · exact .wait .tx _ rfl hp
    · exact .of_isSome (by simp [i2cAccess, hp])
    · exact .wait .tc _ rfl hp
    · exact .of_isSome (by simp [i2cAccess, hp])
    · exact .wait .stopf _ rfl hp
    · exact .clear hp
    · exact .abStop hp
    · exact .abPoll hp
    · exact .abClear hp
    · exact .stray (by simp_all [Instr.hasPhase, Phase.isI2cCommon, Phase.isAbort]) (h.trans arm.symm)
  | i2cWriteBytes addr count buf =>
    simp only [exec, execI2cWriteBytes] at arm
    split at arm <;> rename_i hp
    · exact .decode hp
    · exact .wait .idle _ rfl hp
    · exact .of_isSome (by simp [i2cAccess, hp])
    · exact .wait .tx _ rfl hp
    · exact .of_isSome (by simp [i2cAccess, hp])
    · exact .of_isSome (by simp [i2cAccess, hp])
    · exact .wait .tc _ rfl hp
    · exact .of_isSome (by simp [i2cAccess, hp])
    · exact .wait .stopf _ rfl hp
    · exact .clear hp
    · exact .abStop hp
    · exact .abPoll hp
    · exact .abClear hp
    · exact .stray (by simp_all [Instr.hasPhase, Phase.isI2cCommon, Phase.isAbort]) (h.trans arm.symm)
  | i2cReadBytes addr reg count buf =>
    simp only [exec, execI2cReadBytes] at arm
    split at arm <;> rename_i hp
    · exact .decode hp
    · exact .wait .idle _ rfl hp
    · exact .of_isSome (by simp [i2cAccess, hp])
    · exact .wait .tx _ rfl hp
    · exact .of_isSome (by simp [i2cAccess, hp])
    · exact .wait .tc _ rfl hp
    · exact .of_isSome (by simp [i2cAccess, hp])
    · exact .wait .rx _ rfl hp
    · exact .of_isSome (by simp [i2cAccess, hp])
    · exact .of_isSome (by simp [i2cAccess, hp])
    · exact .wait .stopf _ rfl hp
    · exact .clear hp
    · exact .abStop hp
    · exact .abPoll hp
    · exact .abClear hp
    · exact .stray (by simp_all [Instr.hasPhase, Phase.isI2cCommon, Phase.isAbort]) (h.trans arm.symm)
  | _ => cases hi

/-- What a SEQ step of an I2C command that answers a next state is, whatever the state. -/
inductive State.I2cStep (i : Instr) (s : State) : State → Prop
  | decode (hp : s.phase = .decode) : I2cStep i s { s with phase := .i2IdlePoll, work.polls := 0 }
  | wait (w : Wait) (n : Phase) (hn : i.waitNext w = some n) (hp : s.phase = w.phase) : I2cStep i s (s.waitStep w n)
  | access (y : I2cAccess) (t : State) (h : i2cAccess i s = some y) (a : s.Accesses y t) : I2cStep i s t
  | clear (hp : s.phase = .i2StopfClear) : I2cStep i s s.stopfClear
  | abStop (hp : s.phase = .i2AbStop) : I2cStep i s s.abortStop
  | abPoll (hp : s.phase = .i2AbPoll) : I2cStep i s s.abortPoll
  | abClear (hp : s.phase = .i2AbClear) : I2cStep i s s.abortClear

theorem exec_i2cStep (hi : i.isI2c = true) (e : exec i s = .next t) : s.I2cStep i t := by
  cases i2cPhase_of_isI2c hi s with
  | decode hp => rw [exec_of_decode_i2c hi hp] at e; cases e; exact .decode hp
  | wait w n hn hp => rw [exec_of_wait hn hp] at e; cases e; exact .wait w n hn hp
  | access y h =>
    rcases exec_of_access h with ⟨a, _, _, fault⟩ | ⟨u, next, acc⟩
    · rw [fault] at e; cases e
    · rw [next] at e; cases e; exact .access y _ h acc
  | clear hp => rw [exec_of_stopfClear hi hp] at e; cases e; exact .clear hp
  | abStop hp => rw [exec_of_abStop hi hp] at e; cases e; exact .abStop hp
  | abPoll hp => rw [exec_of_abPoll hi hp] at e; cases e; exact .abPoll hp
  | abClear hp => rw [exec_of_abClear hi hp] at e; cases e; exact .abClear hp
  | stray _ h => rw [h] at e; cases e

theorem exec_i2cFrame (hi : i.isI2c = true) (e : exec i s = .next t) : s.I2cFrame t := by
  cases exec_i2cStep hi e with
  | decode hp => exact {}
  | wait w n hn hp => exact State.waitStep_i2cFrame hp
  | access y t h a => exact a.frame
  | clear hp => exact {}
  | abStop hp => exact {}
  | abPoll hp => exact s.abortPoll_i2cFrame
  | abClear hp => exact {}

/-! Settling O26. -/

theorem exec_i2c_entersCleared (hi : i.isI2c = true) (e : exec i s = .next t) : s.EntersCleared t := by
  cases exec_i2cStep hi e with
  | decode hp => exact fun _ _ => rfl
  | wait w n hn hp => exact State.waitStep_entersCleared hp
  | access y t h a => exact fun poll _ => a.polls (a.phase ▸ poll)
  | clear hp => exact .of_not_poll rfl
  | abStop hp => exact fun _ _ => rfl
  | abPoll hp => exact State.abortPoll_entersCleared hp
  | abClear hp => exact .of_not_poll rfl

theorem State.duEntry_entersCleared (s : State) : s.EntersCleared s.duEntry := by
  rcases s.duEntry_cases with ⟨_, e⟩ | ⟨_, e⟩ <;> rw [e]
  · exact .delayReturn rfl
  · exact .of_not_poll rfl

theorem State.duWait_entersCleared (s : State) : s.EntersCleared s.duWait := by
  rcases s.duWait_cases with ⟨_, e⟩ | ⟨_, e⟩ <;> rw [e]
  · exact .of_not_poll rfl
  · exact .of_same rfl

theorem State.duClear_entersCleared (s : State) : s.EntersCleared s.duClear := by
  rcases s.duClear_cases with ⟨_, e⟩ | ⟨_, e⟩ <;> rw [e]
  · exact .delayReturn rfl
  · exact .of_not_poll rfl

theorem State.dmArm_entersCleared (s : State) : s.EntersCleared s.dmArm := by
  rcases s.dmArm_cases with ⟨_, e⟩ | ⟨_, e⟩ <;> rw [e]
  · exact .delayReturn rfl
  · exact .of_not_poll rfl

theorem State.dmWait_entersCleared (s : State) : s.EntersCleared s.dmWait := by
  rcases s.dmWait_cases with ⟨_, e⟩ | ⟨_, e⟩ <;> rw [e]
  · exact .of_not_poll rfl
  · exact .of_same rfl

theorem execInitClock_entersCleared (e : execInitClock s = .next t) : s.EntersCleared t := by
  unfold execInitClock at e
  split at e <;> cases e
  · exact .of_not_poll rfl
  · unfold State.ckInit
    split
    · exact .of_same rfl
    · exact .of_not_poll rfl

theorem execClockNow_entersCleared (e : execClockNow s = .next t) : s.EntersCleared t := by
  unfold execClockNow at e
  split at e <;> cases e
  · exact .of_not_poll rfl
  · exact .of_not_poll rfl

theorem execDelayUs_entersCleared {n : Word} (e : execDelayUs n s = .next t) : s.EntersCleared t := by
  unfold execDelayUs at e
  split at e <;> cases e
  · exact .of_not_poll rfl
  · exact s.duEntry_entersCleared
  · exact s.duWait_entersCleared
  · exact s.duClear_entersCleared

theorem execDelayMs_entersCleared {n : Word} (e : execDelayMs n s = .next t) : s.EntersCleared t := by
  unfold execDelayMs at e
  split at e <;> cases e
  · exact .of_not_poll rfl
  · exact s.dmArm_entersCleared
  · exact s.dmWait_entersCleared

theorem State.sampleA_not_poll (timeout : Word) (s : State) : (s.sampleA timeout).phase.isPoll = false := by
  unfold State.sampleA
  split
  · rfl
  · split <;> rfl

theorem State.sampleB_not_poll (timeout : Word) (s : State) : (s.sampleB timeout).phase.isPoll = false := by
  unfold State.sampleB
  split
  · rfl
  · split <;> rfl

theorem execMeasure_entersCleared {n : Word} (e : execMeasure n s = .next t) : s.EntersCleared t := by
  unfold execMeasure at e
  split at e <;> cases e
  · exact .of_not_poll rfl
  · exact .of_not_poll rfl
  · exact .of_not_poll rfl
  · exact .of_not_poll rfl
  · exact .of_not_poll (s.sampleA_not_poll n)
  · exact .of_not_poll (s.sampleB_not_poll n)
  · exact .of_not_poll rfl
  · exact s.duEntry_entersCleared
  · exact s.duWait_entersCleared
  · exact s.duClear_entersCleared
  · exact s.dmArm_entersCleared
  · exact s.dmWait_entersCleared

theorem exec_entersCleared (e : exec i s = .next t) : s.EntersCleared t := by
  cases i with
  | initClock => exact execInitClock_entersCleared e
  | clockNow => exact execClockNow_entersCleared e
  | delayUs n => exact execDelayUs_entersCleared e
  | delayMs n => exact execDelayMs_entersCleared e
  | i2cWriteByte addr data => exact exec_i2c_entersCleared rfl e
  | i2cWriteBytes addr count buf => exact exec_i2c_entersCleared rfl e
  | i2cReadBytes addr reg count buf => exact exec_i2c_entersCleared rfl e
  | measure n => exact execMeasure_entersCleared e

/-- The state after a poll whose wait is over. -/
theorem State.pread_goto_of_wait {n : Phase} (hn : i.waitNext w = some n) : (s.pread .status).goto n = { s.dropDraw with
    per.status := s.draw.word, hist := s.hist ++ [.pRd .status s.draw.word], phase := n } := by
  rw [State.goto_of_not_poll (waitNext_spec hn).2.2.1, State.pread_status_eq]

/-- Settles O26: the four outcomes of the wait step, and `exec_entersCleared`. -/
theorem waitStep : Obligations.WaitStep := by
  refine ⟨fun i w n s hn hp => ?_, fun v => ⟨rfl, rfl, rfl, rfl, rfl⟩, fun i s t e poll ne => exec_entersCleared e poll ne⟩
  rw [exec_of_wait hn hp]
  have clash : w.holds s.draw.word = true → w.holds s.draw.word = false → False := fun h k => by rw [h] at k; cases k
  rcases State.waitStep_cases (n := n) hp with ⟨holds, e⟩ | ⟨fails, mode, e⟩ | ⟨fails, mode, last, e⟩ | ⟨fails, mode, more, e⟩ <;>
    rw [e]
  · rw [State.pread_goto_of_wait hn]
    exact ⟨fun _ => rfl, fun h => (clash holds h).elim, fun h => (clash holds h).elim, fun h => (clash holds h).elim⟩
  · refine ⟨fun h => (clash h fails).elim, fun _ _ => by rw [State.pread_status_eq], fun _ h => ?_, fun _ h => ?_⟩ <;>
      rw [mode] at h <;> cases h
  · refine ⟨fun h => (clash h fails).elim, fun _ h => ?_, fun _ _ h => absurd last h, fun _ _ _ => by rw [State.waitFail_eq]⟩
    rw [mode] at h; cases h
  · refine ⟨fun h => (clash h fails).elim, fun _ h => ?_, fun _ _ _ => by rw [State.polled_eq], fun _ _ h => absurd h more⟩
    rw [mode] at h; cases h

/-! Memory, as `HIST` tells it (20_memory R73). -/

theorem replayWrites_of_not_mWr {m : Memory} {es : List Event} (h : ∀ a v, Event.mWr a v ∉ es) : replayWrites m es = m := by
  induction es generalizing m with
  | nil => rfl
  | cons e es ih =>
    have rest : replayWrites m es = m := ih fun a v hm => h a v (List.mem_cons_of_mem _ hm)
    cases e with
    | mWr a v => exact absurd List.mem_cons_self (h a v)
    | _ => exact rest

/-- The memory a step of command `i` leaves is what its event makes of it. -/
theorem exec_mem {es : List Event} (e : exec i s = .next t) (hist : t.hist = s.hist ++ es) : t.mem = replayWrites s.mem es := by
  obtain ⟨fs, hist', mem, _⟩ := exec_logs e
  rwa [List.append_cancel_left (hist'.symm.trans hist)] at mem

/-- A step of an I2C command writes no memory, unless it is an access that does. -/
theorem exec_i2c_mem (hi : i.isI2c = true) (e : exec i s = .next t) :
    t.mem = s.mem ∨ ∃ y, i2cAccess i s = some y ∧ t.mem = replayWrites s.mem [y.event] := by
  cases exec_i2cStep hi e with
  | access y t h a => exact .inr ⟨y, h, exec_mem e a.hist⟩
  | wait w n hn hp =>
    refine .inl ?_
    rcases State.waitStep_cases (n := n) hp with ⟨_, e⟩ | ⟨_, _, e⟩ | ⟨_, _, _, e⟩ | ⟨_, _, _, e⟩ <;> rw [e]
    · simp
    · simp
    · cases w <;> exact s.pread_mem .status
    · exact s.pread_mem .status
  | abPoll hp =>
    refine .inl ?_
    rcases s.abortPoll_cases with ⟨_, e⟩ | ⟨_, _, e⟩ | ⟨_, _, e⟩ <;> rw [e] <;> exact s.pread_mem .status
  | _ => exact .inl rfl

/-- The only access that writes memory is the store of a received byte (41_i2c R150). -/
theorem i2cAccess_mWr {a : Word} {v : Byte} (h : i2cAccess i s = some y) (hy : y.event = .mWr a v) :
    ∃ addr reg count buf, i = .i2cReadBytes addr reg count buf ∧ s.phase = .i2RxStore ∧ a = bufferAddress buf s.work.idx := by
  unfold i2cAccess at h
  split at h <;> cases h <;> cases hy
  exact ⟨_, _, _, _, rfl, ‹_›, rfl⟩

theorem exec_i2c_read {x : Nat} (hi : i.isI2c = true) (e : exec i s = .next t)
    (hx : ∀ addr reg count buf, i = .i2cReadBytes addr reg count buf → s.phase = .i2RxStore →
      x ≠ (bufferAddress buf s.work.idx).toNat) : Memory.read t.mem x = Memory.read s.mem x := by
  rcases exec_i2c_mem hi e with mem | ⟨y, h, mem⟩ <;> rw [mem]
  by_cases writes : ∃ a v, y.event = .mWr a v
  · obtain ⟨a, v, hy⟩ := writes
    obtain ⟨addr, reg, count, buf, rfl, hp, rfl⟩ := i2cAccess_mWr h hy
    rw [hy]
    exact Memory.read_write_ne s.mem v (hx _ _ _ _ rfl hp)
  · rw [replayWrites_of_not_mWr]
    intro a v hm
    exact writes ⟨a, v, (List.mem_singleton.mp hm).symm⟩

/-- Settles O52, from the frame of a step and the one access that writes memory. -/
theorem frameI2c : Obligations.FrameI2c := by
  intro i s t e hi
  obtain ⟨clk, mst, trig, faults, cmd, cfg, hostData, moves, res, work⟩ := exec_i2cFrame hi e
  refine ⟨clk, mst, trig, faults, cmd, cfg, hostData, moves, res, work, ?_⟩
  cases i with
  | i2cReadBytes addr reg count buf =>
    intro a ha
    refine exec_i2c_read hi e fun _ _ _ _ same hp => ?_
    cases same
    exact ha hp
  | _ => exact fun a => exec_i2c_read hi e nofun

end

end Sys2Proof.Machine
end

/-! ### The traces of the I2C commands (O32 to O36) -/

section
namespace Sys2Proof.Machine

/-! A script: what SEQ's events are made of on the way to a point of a command (41_i2c R145, R147, R150). -/

/-- A piece of SEQ's events in an I2C command: the reads of a wait that is over, an access, or the accesses of one byte. -/
inductive I2cSegment where
  | wait (w : Wait)
  | ctrl (v : Word)
  | send (b : Byte)
  | stop
  /-- Byte `b` was read from memory at `a`, and is not yet sent. -/
  | fetched (a : Word) (b : Byte)
  | transmitted (a : Word)
  /-- Byte `b` was read from `RXDR`, and is not yet stored. -/
  | received (b : Byte)
  | stored (a : Word)

/-- The events of a segment, over memory `m` and under the poll limit of `c`. -/
def I2cSegment.Matches (c : Config) (m : Memory) (x : I2cSegment) (es : List Event) : Prop :=
  match x with
  | .wait w => ∃ vs, w.passes vs ∧ (c.mode = .bounded → vs.length ≤ c.pollLimit) ∧ es = statusReads vs
  | .ctrl v => es = [.pWr .ctrl v]
  | .send b => es = [.pWr .txdr (txdrWord b)]
  | .stop => es = [.pStop]
  | .fetched a b => es = [.mRd a b] ∧ b = Memory.read m a.toNat
  | .transmitted a => es = [.mRd a (Memory.read m a.toNat), .pWr .txdr (txdrWord (Memory.read m a.toNat))]
  | .received b => ∃ v, es = [.pRd .rxdr v] ∧ b = rxdrByte v
  | .stored a => ∃ v, es = [.pRd .rxdr v, .mWr a (rxdrByte v)]

/-- The events are those of the segments, in order. -/
def Follows (c : Config) (m : Memory) (xs : List I2cSegment) (es : List Event) : Prop :=
  match xs with
  | [] => es = []
  | x :: xs => ∃ fs gs, es = fs ++ gs ∧ x.Matches c m fs ∧ Follows c m xs gs

/-- The transmit loop over the first `k` bytes of the buffer. -/
def transmits (buf : Word) (k : Nat) : List I2cSegment :=
  (List.range k).flatMap fun j => [.wait .tx, .transmitted (buf + BitVec.ofNat 32 j)]

/-- The receive loop over the first `k` bytes of the buffer. -/
def receives (buf : Word) (k : Nat) : List I2cSegment :=
  (List.range k).flatMap fun j => [.wait .rx, .stored (buf + BitVec.ofNat 32 j)]

/-- `I2C_WRITE_BYTES` from WaitIdle to the end of byte `k - 1` (41_i2c R147). -/
def sentBytes (addr : Addr7) (count : Byte) (buf : Word) (k : Nat) : List I2cSegment :=
  [.wait .idle] ++ [.ctrl (ctrlWord addr count false false)] ++ transmits buf k

/-- From WaitIdle to the write of a first byte: the register select of `I2C_READ_BYTES`, and the byte of `I2C_WRITE_BYTE`
(41_i2c R145, R150). -/
def sentByte (addr : Addr7) (data : Byte) : List I2cSegment :=
  [.wait .idle] ++ [.ctrl (ctrlWord addr 1 false false)] ++ [.wait .tx] ++ [.send data]

/-- `I2C_READ_BYTES` from WaitIdle to the end of byte `k - 1` (41_i2c R150). -/
def receivedBytes (addr : Addr7) (reg count : Byte) (buf : Word) (k : Nat) : List I2cSegment :=
  sentByte addr reg ++ [.wait .tc] ++ [.ctrl (ctrlWord addr count true true)] ++ receives buf k

/-- `I2C_WRITE_BYTE` up to its phase `p` (41_i2c R145). -/
def writeByteScript (addr : Addr7) (data : Byte) (p : Phase) : List I2cSegment :=
  match p with
  | .i2Start => [.wait .idle]
  | .i2TxPoll => [.wait .idle] ++ [.ctrl (ctrlWord addr 1 false false)]
  | .i2TxWrite => [.wait .idle] ++ [.ctrl (ctrlWord addr 1 false false)] ++ [.wait .tx]
  | .i2TcPoll => sentByte addr data
  | .i2Stop => sentByte addr data ++ [.wait .tc]
  | .i2StopfPoll => sentByte addr data ++ [.wait .tc] ++ [.stop]
  | .i2StopfClear => sentByte addr data ++ [.wait .tc] ++ [.stop] ++ [.wait .stopf]
  | _ => []

/-- `I2C_WRITE_BYTES` up to its phase `p`, with `IDX = x` and `BYTE = b` (41_i2c R147). -/
def writeBytesScript (addr : Addr7) (count : Byte) (buf : Word) (p : Phase) (x : BitVec 9) (b : Byte) : List I2cSegment :=
  match p with
  | .i2Start => [.wait .idle]
  | .i2TxPoll => sentBytes addr count buf x.toNat
  | .i2TxFetch => sentBytes addr count buf x.toNat ++ [.wait .tx]
  | .i2TxWrite => sentBytes addr count buf x.toNat ++ [.wait .tx] ++ [.fetched (bufferAddress buf x) b]
  | .i2TcPoll => sentBytes addr count buf count.toNat
  | .i2Stop => sentBytes addr count buf count.toNat ++ [.wait .tc]
  | .i2StopfPoll => sentBytes addr count buf count.toNat ++ [.wait .tc] ++ [.stop]
  | .i2StopfClear => sentBytes addr count buf count.toNat ++ [.wait .tc] ++ [.stop] ++ [.wait .stopf]
  | _ => []

/-- `I2C_READ_BYTES` up to its phase `p`, with `IDX = x` and `BYTE = b` (41_i2c R150). -/
def readBytesScript (addr : Addr7) (reg count : Byte) (buf : Word) (p : Phase) (x : BitVec 9) (b : Byte) : List I2cSegment :=
  match p with
  | .i2Start => [.wait .idle]
  | .i2TxPoll => [.wait .idle] ++ [.ctrl (ctrlWord addr 1 false false)]
  | .i2TxWrite => [.wait .idle] ++ [.ctrl (ctrlWord addr 1 false false)] ++ [.wait .tx]
  | .i2TcPoll => sentByte addr reg
  | .i2Restart => sentByte addr reg ++ [.wait .tc]
  | .i2RxPoll => receivedBytes addr reg count buf x.toNat
  | .i2RxRead => receivedBytes addr reg count buf x.toNat ++ [.wait .rx]
  | .i2RxStore => receivedBytes addr reg count buf x.toNat ++ [.wait .rx] ++ [.received b]
  | .i2StopfPoll => receivedBytes addr reg count buf count.toNat
  | .i2StopfClear => receivedBytes addr reg count buf count.toNat ++ [.wait .stopf]
  | _ => []

/-- SEQ's events of the I2C command `i` from `DECODE` to its entry of phase `p`, with `IDX = x` and `BYTE = b`. -/
def scriptTo (i : Instr) (p : Phase) (x : BitVec 9) (b : Byte) : List I2cSegment :=
  match i with
  | .i2cWriteByte addr data => writeByteScript addr data p
  | .i2cWriteBytes addr count buf => writeBytesScript addr count buf p x b
  | .i2cReadBytes addr reg count buf => readBytesScript addr reg count buf p x b
  | _ => []

section
variable {c : Config} {m : Memory} {x : I2cSegment} {xs ys : List I2cSegment} {es fs : List Event}

@[simp] theorem follows_nil : Follows c m [] es ↔ es = [] := Iff.rfl

theorem follows_cons : Follows c m (x :: xs) es ↔ ∃ fs gs, es = fs ++ gs ∧ x.Matches c m fs ∧ Follows c m xs gs := Iff.rfl

theorem follows_append : Follows c m (xs ++ ys) es ↔ ∃ fs gs, es = fs ++ gs ∧ Follows c m xs fs ∧ Follows c m ys gs := by
  induction xs generalizing es with
  | nil => simp
  | cons x xs ih =>
    simp only [List.cons_append, follows_cons, ih]
    constructor
    · rintro ⟨fs, _, rfl, hx, gs, hs, rfl, hxs, hys⟩
      exact ⟨fs ++ gs, hs, by simp, ⟨fs, gs, rfl, hx, hxs⟩, hys⟩
    · rintro ⟨_, hs, rfl, ⟨fs, gs, rfl, hx, hxs⟩, hys⟩
      exact ⟨fs, gs ++ hs, by simp, hx, gs, hs, rfl, hxs, hys⟩

theorem follows_singleton : Follows c m [x] es ↔ x.Matches c m es := by simp [follows_cons]

theorem follows_concat : Follows c m (xs ++ [x]) es ↔ ∃ fs gs, es = fs ++ gs ∧ Follows c m xs fs ∧ x.Matches c m gs := by
  simp only [follows_append, follows_singleton]

theorem Follows.concat (h : Follows c m xs es) (hx : x.Matches c m fs) : Follows c m (xs ++ [x]) (es ++ fs) :=
  follows_concat.mpr ⟨es, fs, rfl, h, hx⟩

/-- The byte that was fetched is sent. -/
theorem Follows.transmit {a : Word} {b : Byte} (h : Follows c m (xs ++ [.fetched a b]) es) :
    Follows c m (xs ++ [.transmitted a]) (es ++ [.pWr .txdr (txdrWord b)]) := by
  obtain ⟨fs, gs, rfl, hxs, rfl, rfl⟩ := follows_concat.mp h
  exact follows_concat.mpr ⟨fs, _, by simp, hxs, rfl⟩

/-- The byte that was received is stored. -/
theorem Follows.store {b : Byte} (h : Follows c m (xs ++ [.received b]) es) (a : Word) :
    Follows c m (xs ++ [.stored a]) (es ++ [.mWr a b]) := by
  obtain ⟨fs, gs, rfl, hxs, v, rfl, rfl⟩ := follows_concat.mp h
  exact follows_concat.mpr ⟨fs, _, by simp, hxs, v, rfl⟩

end

section
variable {i : Instr} {c : Config} {m : Memory} {s : State} {y : I2cAccess} {w : Wait} {n p : Phase} {es : List Event}

theorem transmits_succ (buf : Word) (k : Nat) :
    transmits buf (k + 1) = transmits buf k ++ [.wait .tx] ++ [.transmitted (buf + BitVec.ofNat 32 k)] := by
  simp [transmits, List.range_succ]

theorem receives_succ (buf : Word) (k : Nat) :
    receives buf (k + 1) = receives buf k ++ [.wait .rx] ++ [.stored (buf + BitVec.ofNat 32 k)] := by
  simp [receives, List.range_succ]

theorem sentBytes_succ (addr : Addr7) (count : Byte) (buf : Word) (k : Nat) : sentBytes addr count buf (k + 1) =
    sentBytes addr count buf k ++ [.wait .tx] ++ [.transmitted (buf + BitVec.ofNat 32 k)] := by
  simp [sentBytes, transmits_succ]

theorem receivedBytes_succ (addr : Addr7) (reg count : Byte) (buf : Word) (k : Nat) : receivedBytes addr reg count buf (k + 1) =
    receivedBytes addr reg count buf k ++ [.wait .rx] ++ [.stored (buf + BitVec.ofNat 32 k)] := by
  simp [receivedBytes, receives_succ]

theorem bufferAddress_eq (buf : Word) (x : BitVec 9) : bufferAddress buf x = buf + BitVec.ofNat 32 x.toNat := by
  rw [bufferAddress, BitVec.ofNat_toNat]

/-- At a phase of the loop over a buffer, byte `IDX = x` is a byte of the buffer (41_i2c R147, R150). -/
def HasByte (i : Instr) (p : Phase) (x : BitVec 9) : Prop := ∀ n, i.needsByte p = some n → x.toNat < n.toNat

theorem hasByte_of_none {x : BitVec 9} (h : i.needsByte p = none) : HasByte i p x := fun n hn => by rw [h] at hn; cases hn

/-- The index in 9 bits does not wrap within a buffer. -/
theorem toNat_idx_succ {x : BitVec 9} {n : Byte} (h : x.toNat < n.toNat) : (x + 1).toNat = x.toNat + 1 := by
  bv_omega

/-- A wait that is over leads to the next phase. -/
theorem scriptTo_waitNext (hn : i.waitNext w = some n) (x : BitVec 9) (b : Byte) :
    scriptTo i n x b = scriptTo i w.phase x b ++ [.wait w] := by
  unfold Instr.waitNext at hn
  split at hn <;> cases hn <;> rfl

/-- The next point after an access, and the script to it. -/
structure Enters (i : Instr) (c : Config) (m : Memory) (y : I2cAccess) (es : List Event) : Prop where
  phase : i.hasPhase y.next = true := by rfl
  abort : y.next.isAbort = false := by rfl
  byte : HasByte i y.next y.idx
  path : Follows c m (scriptTo i y.next y.idx y.byte) es

/-- An access leads to the next point of the command. -/
theorem i2cAccess_enters (h : i2cAccess i s = some y) (byte : HasByte i s.phase s.work.idx)
    (mem : ∀ addr count buf, i = .i2cWriteBytes addr count buf → ∀ a, Memory.read s.mem a = Memory.read m a)
    (path : Follows c m (scriptTo i s.phase s.work.idx s.work.byte) es) : Enters i c m y (es ++ [y.event]) := by
  unfold i2cAccess at h
  split at h <;> cases h <;> rename_i hp <;> rw [hp] at path byte
  case h_1 => exact { byte := hasByte_of_none rfl, path := path.concat rfl }
  case h_2 => exact { byte := hasByte_of_none rfl, path := path.concat rfl }
  case h_3 => exact { byte := hasByte_of_none rfl, path := path.concat rfl }
  case h_4 addr count buf =>
    have begun := path.concat (x := .ctrl (ctrlWord addr count false false)) rfl
    by_cases hc : count = 0
    · simp only [hc, if_true] at begun ⊢
      exact { byte := hasByte_of_none rfl, path := begun }
    · simp only [hc, if_false]
      exact { byte := fun n hn => by cases hn; exact zero_lt_count hc, path := begun }
  case h_5 addr count buf =>
    exact { byte := byte, path := path.concat ⟨rfl, mem addr count buf rfl _⟩ }
  case h_6 addr count buf =>
    have lt : s.work.idx.toNat < count.toNat := byte count rfl
    have sent : Follows c m (sentBytes addr count buf (s.work.idx.toNat + 1)) (es ++ [.pWr .txdr (txdrWord s.work.byte)]) := by
      rw [sentBytes_succ, ← bufferAddress_eq]
      exact path.transmit
    by_cases more : (s.work.idx + 1).toNat < count.toNat
    · simp only [more, if_true]
      exact { byte := fun n hn => by cases hn; exact more, path := by rw [← toNat_idx_succ lt] at sent; exact sent }
    · simp only [more, if_false]
      have last : s.work.idx.toNat + 1 = count.toNat := by rw [toNat_idx_succ lt] at more; omega
      exact { byte := hasByte_of_none rfl, path := by rw [last] at sent; exact sent }
  case h_7 => exact { byte := hasByte_of_none rfl, path := path.concat rfl }
  case h_8 => exact { byte := hasByte_of_none rfl, path := path.concat rfl }
  case h_9 => exact { byte := hasByte_of_none rfl, path := path.concat rfl }
  case h_10 addr reg count buf =>
    have begun := path.concat (x := .ctrl (ctrlWord addr count true true)) rfl
    by_cases hc : count = 0
    · simp only [hc, if_true] at begun ⊢
      exact { byte := hasByte_of_none rfl, path := begun }
    · simp only [hc, if_false]
      exact { byte := fun n hn => by cases hn; exact zero_lt_count hc, path := begun }
  case h_11 => exact { byte := byte, path := path.concat ⟨_, rfl, rfl⟩ }
  case h_12 addr reg count buf =>
    have lt : s.work.idx.toNat < count.toNat := byte count rfl
    have stored : Follows c m (receivedBytes addr reg count buf (s.work.idx.toNat + 1))
        (es ++ [.mWr (bufferAddress buf s.work.idx) s.work.byte]) := by
      rw [receivedBytes_succ, ← bufferAddress_eq]
      exact path.store _
    by_cases more : (s.work.idx + 1).toNat < count.toNat
    · simp only [more, if_true]
      exact { byte := fun n hn => by cases hn; exact more, path := by rw [← toNat_idx_succ lt] at stored; exact stored }
    · simp only [more, if_false]
      have last : s.work.idx.toNat + 1 = count.toNat := by rw [toNat_idx_succ lt] at more; omega
      exact { byte := hasByte_of_none rfl, path := by rw [last] at stored; exact stored }

end

end Sys2Proof.Machine
end

section
namespace Sys2Proof.Machine

/-! Where a command is, after its run so far recorded SEQ's events `es` (41_i2c R140, R142). -/

section
variable (i : Instr) (c : Config) (m : Memory)

/-- Wait `x` of command `i`, not WaitIdle, has failed after `POLL_LIMIT` reads (41_i2c R140). -/
inductive WaitFailed (x : Wait) (es : List Event) : Prop
  | mk {n : Phase} {pre : List Event} {us : List Word} {j : BitVec 9} {b : Byte} (hn : i.waitNext x = some n) (hx : x ≠ .idle)
      (mode : c.mode = .bounded) (byte : HasByte i x.phase j) (path : Follows c m (scriptTo i x.phase j b) pre)
      (length : us.length = c.pollLimit) (fails : ∀ u ∈ us, x.holds u = false) (events : es = pre ++ statusReads us)

/-- The reads of the abort: they end at the first `STOPF`, or at the `POLL_LIMIT`-th (41_i2c R142). -/
structure AbortPolled (us : List Word) : Prop where
  nonempty : us ≠ []
  length : us.length ≤ c.pollLimit
  fails : ∀ u ∈ us.dropLast, u.getLsbD 4 = false
  seen : us.length < c.pollLimit → ∃ u, us.getLast? = some u ∧ u.getLsbD 4 = true

/-- How a command ends, and all of SEQ's events then. -/
inductive I2cOutcome (es : List Event) : Prop
  | ok {pre : List Event} {j : BitVec 9} {b : Byte} (path : Follows c m (scriptTo i .i2StopfClear j b) pre)
      (events : es = pre ++ [.pWr .clear clearWord, .complete 0])
  | busBusy {us : List Word} (mode : c.mode = .bounded) (length : us.length = c.pollLimit)
      (fails : ∀ u ∈ us, Wait.holds .idle u = false) (events : es = statusReads us ++ [.complete 1])
  | error {x : Wait} {pre : List Event} {us : List Word} (failed : WaitFailed i c m x pre) (polled : AbortPolled c us)
      (events : es = pre ++ [.pStop] ++ statusReads us ++ [.pWr .clear clearWord, .complete x.err.code])

/-- The point a command is at: the phase `p` and the working registers `w`, and SEQ's events of the run so far. -/
inductive I2cPoint (p : Phase) (w : Work) (es : List Event) : Prop
  | decode (hp : p = .decode) (events : es = [])
  | wait {x : Wait} {n : Phase} {pre : List Event} {us : List Word} (hn : i.waitNext x = some n) (hp : p = x.phase)
      (byte : HasByte i x.phase w.idx) (path : Follows c m (scriptTo i x.phase w.idx w.byte) pre)
      (fails : ∀ u ∈ us, x.holds u = false) (polls : c.mode = .bounded → w.polls = us.length ∧ us.length < c.pollLimit)
      (events : es = pre ++ statusReads us)
  | access (hp : i.hasPhase p = true) (poll : p.isPoll = false) (abort : p.isAbort = false) (byte : HasByte i p w.idx)
      (path : Follows c m (scriptTo i p w.idx w.byte) es)
  | abStop {x : Wait} (hp : p = .i2AbStop) (failed : WaitFailed i c m x es) (err : w.err = x.err.code)
  | abPoll {x : Wait} {pre : List Event} {us : List Word} (hp : p = .i2AbPoll) (failed : WaitFailed i c m x pre)
      (err : w.err = x.err.code) (fails : ∀ u ∈ us, u.getLsbD 4 = false) (polls : w.polls = us.length)
      (left : us.length < c.pollLimit) (events : es = pre ++ [.pStop] ++ statusReads us)
  | abClear {x : Wait} {pre : List Event} {us : List Word} (hp : p = .i2AbClear) (failed : WaitFailed i c m x pre)
      (err : w.err = x.err.code) (polled : AbortPolled c us) (events : es = pre ++ [.pStop] ++ statusReads us)
  | ended (hp : p = .idle) (outcome : I2cOutcome i c m es)

/-- A step of the command goes from `s`, after SEQ's events `es`, to the next point. It records something, unless it decodes. -/
def StepsOn (s : State) (es : List Event) : Prop :=
  ∃ t fs, exec i s = .next t ∧ t.hist = s.hist ++ fs ∧ seqEvents fs = fs ∧ (s.phase ≠ .decode → fs ≠ []) ∧
    I2cPoint i c m t.phase t.work (es ++ fs)

end

section
variable {i : Instr} {c : Config} {m : Memory} {s t : State} {p : Phase} {w : Work} {x : Wait} {n : Phase} {y : I2cAccess}
  {es pre : List Event} {us : List Word} {v : Word}

@[simp] theorem statusReads_append (us vs : List Word) : statusReads (us ++ vs) = statusReads us ++ statusReads vs :=
  List.map_append

theorem Wait.passes_concat (fails : ∀ u ∈ us, x.holds u = false) (hv : x.holds v = true) : x.passes (us ++ [v]) :=
  ⟨us, v, rfl, fails, hv⟩

theorem forall_concat {P : Word → Prop} (h : ∀ u ∈ us, P u) (hv : P v) : ∀ u ∈ us ++ [v], P u := by
  simpa [or_imp, forall_and] using ⟨h, hv⟩

theorem exists_wait_of_isPoll (poll : p.isPoll = true) (abort : p.isAbort = false) : ∃ x : Wait, p = x.phase := by
  cases p with
  | i2IdlePoll => exact ⟨.idle, rfl⟩
  | i2TxPoll => exact ⟨.tx, rfl⟩
  | i2RxPoll => exact ⟨.rx, rfl⟩
  | i2TcPoll => exact ⟨.tc, rfl⟩
  | i2StopfPoll => exact ⟨.stopf, rfl⟩
  | i2AbPoll => cases abort
  | _ => cases poll

/-- Every command of the family has every wait, but the receive wait is that of `I2C_READ_BYTES`. -/
theorem waitNext_of_hasPhase (hi : i.isI2c = true) (hp : i.hasPhase x.phase = true) : ∃ n, i.waitNext x = some n := by
  cases i with
  | i2cWriteByte addr data => cases x with
    | rx => cases hp
    | _ => exact ⟨_, rfl⟩
  | i2cWriteBytes addr count buf => cases x with
    | rx => cases hp
    | _ => exact ⟨_, rfl⟩
  | i2cReadBytes addr reg count buf => cases x <;> exact ⟨_, rfl⟩
  | _ => cases hi

/-- At a point it enters, a command polls with no read yet, or is at an access. -/
theorem I2cPoint.enter (hi : i.isI2c = true) (hc : c.wellFormed = true) (hp : i.hasPhase p = true) (abort : p.isAbort = false)
    (polls : p.isPoll = true → w.polls = 0) (byte : HasByte i p w.idx)
    (path : Follows c m (scriptTo i p w.idx w.byte) es) : I2cPoint i c m p w es := by
  cases poll : p.isPoll with
  | false => exact .access hp poll abort byte path
  | true =>
    obtain ⟨x, rfl⟩ := exists_wait_of_isPoll poll abort
    obtain ⟨n, hn⟩ := waitNext_of_hasPhase hi hp
    exact .wait (us := []) hn rfl byte path (by simp) (fun _ => ⟨polls poll, Config.pollLimit_pos hc⟩) (by simp [statusReads])

theorem scriptTo_idlePoll (i : Instr) (j : BitVec 9) (b : Byte) : scriptTo i .i2IdlePoll j b = [] := by cases i <;> rfl

theorem needsByte_idlePoll (i : Instr) : i.needsByte .i2IdlePoll = none := by cases i <;> rfl

theorem StepsOn.decode (hi : i.isI2c = true) (hc : c.wellFormed = true) (hp : s.phase = .decode) : StepsOn i c m s [] :=
  ⟨_, [], exec_of_decode_i2c hi hp, by simp, rfl, fun h => absurd hp h,
    .enter hi hc (hasPhase_of_isI2cCommon hi rfl) rfl (fun _ => rfl) (hasByte_of_none (needsByte_idlePoll i))
      (by rw [scriptTo_idlePoll]; rfl)⟩

theorem Wait.eq_idle_of_not_aborts (h : ¬ x.aborts = true) : x = .idle := by
  cases x with
  | idle => rfl
  | _ => exact absurd rfl h

/-- The last poll of a wait fails it: WaitIdle ends the command, every other wait aborts (41_i2c R140). -/
theorem I2cPoint.waitFail (hn : i.waitNext x = some n) (mode : c.mode = .bounded) (byte : HasByte i x.phase s.work.idx)
    (path : Follows c m (scriptTo i x.phase s.work.idx s.work.byte) pre) (length : us.length = c.pollLimit)
    (fails : ∀ u ∈ us, x.holds u = false) : ∃ fs, (s.waitFail x).hist = s.hist ++ fs ∧ seqEvents fs = fs ∧
      I2cPoint i c m (s.waitFail x).phase (s.waitFail x).work (pre ++ statusReads us ++ fs) := by
  unfold State.waitFail
  split
  · next ha =>
    have hx : x ≠ .idle := by rintro rfl; cases ha
    refine ⟨[], by simp, rfl, .abStop rfl ?_ rfl⟩
    rw [List.append_nil]
    exact ⟨hn, hx, mode, byte, path, length, fails, rfl⟩
  · next ha =>
    obtain rfl := Wait.eq_idle_of_not_aborts ha
    obtain rfl : pre = [] := by rw [Wait.phase, scriptTo_idlePoll] at path; exact path
    exact ⟨[.complete 1], rfl, rfl, .ended rfl (.busBusy mode length fails rfl)⟩

theorem StepsOn.wait (hc : s.cfg = c) (hn : i.waitNext x = some n) (hp : s.phase = x.phase)
    (byte : HasByte i x.phase s.work.idx) (path : Follows c m (scriptTo i x.phase s.work.idx s.work.byte) pre)
    (fails : ∀ u ∈ us, x.holds u = false)
    (polls : c.mode = .bounded → s.work.polls = us.length ∧ us.length < c.pollLimit) :
    StepsOn i c m s (pre ++ statusReads us) := by
  subst hc
  have reads : pre ++ statusReads us ++ [.pRd .status s.preadValue] = pre ++ statusReads (us ++ [s.preadValue]) := by
    simp [statusReads]
  rcases State.waitStep_cases (n := n) hp with ⟨hv, e⟩ | ⟨hv, mode, e⟩ | ⟨hv, mode, last, e⟩ | ⟨hv, mode, more, e⟩
  · obtain ⟨-, phase, poll, abort, needs⟩ := waitNext_spec hn
    refine ⟨_, [.pRd .status s.preadValue], exec_of_wait hn hp, by rw [e]; simp, rfl, fun _ => List.cons_ne_nil _ _, ?_⟩
    rw [reads, e, State.goto_of_not_poll poll]
    refine .access phase poll abort ?_ ?_
    · simpa [HasByte, needs] using byte
    · rw [scriptTo_waitNext hn, State.pread_work]
      refine path.concat ⟨_, Wait.passes_concat fails hv, fun mode => ?_, rfl⟩
      simpa using (polls mode).2
  · refine ⟨_, [.pRd .status s.preadValue], exec_of_wait hn hp, by rw [e]; simp, rfl, fun _ => List.cons_ne_nil _ _, ?_⟩
    rw [reads, e, State.pread_phase, State.pread_work]
    exact .wait hn hp byte path (forall_concat fails hv) (fun h => by rw [h] at mode; cases mode) rfl
  · obtain ⟨count, left⟩ := polls mode
    obtain ⟨fs, hist, seq, point⟩ := I2cPoint.waitFail (s := s.polled) (us := us ++ [s.preadValue]) hn mode (by simpa using byte)
      (by simpa using path) (by simp [← count, last]) (forall_concat fails hv)
    refine ⟨_, .pRd .status s.preadValue :: fs, exec_of_wait hn hp, ?_, ?_, fun _ => List.cons_ne_nil _ _, ?_⟩
    · rw [e, hist, State.polled_hist]; simp
    · rw [← List.singleton_append, seqEvents_append, seq]; rfl
    · rw [e, ← List.singleton_append, ← List.append_assoc, reads]; exact point
  · obtain ⟨count, left⟩ := polls mode
    refine ⟨_, [.pRd .status s.preadValue], exec_of_wait hn hp, by rw [e, State.polled_hist], rfl,
      fun _ => List.cons_ne_nil _ _, ?_⟩
    rw [reads, e, State.polled_phase, State.polled_work]
    refine .wait hn hp byte path (forall_concat fails hv) (fun _ => ?_) rfl
    rw [List.length_append, List.length_singleton, ← count]
    exact ⟨rfl, by omega⟩

/-- An event of an access is SEQ's own. -/
theorem i2cAccess_ofSeq (h : i2cAccess i s = some y) : y.event.ofSeq = true := by
  unfold i2cAccess at h
  split at h <;> cases h <;> rfl

/-- What a step can be that a byte not admitted stops (20_memory R69). -/
def StopsOrStepsOn (i : Instr) (c : Config) (m : Memory) (s : State) (es : List Event) : Prop :=
  (∃ a, admits s.cfg a = false ∧ exec i s = .fault (.hmemNotAdmitted a)) ∨ StepsOn i c m s es

theorem StepsOn.stopfClear (hi : i.isI2c = true) (hp : s.phase = .i2StopfClear)
    (path : Follows c m (scriptTo i .i2StopfClear s.work.idx s.work.byte) es) : StepsOn i c m s es :=
  ⟨_, _, exec_of_stopfClear hi hp, by rw [State.stopfClear_eq]; rfl, rfl, fun _ => List.cons_ne_nil _ _, .ended rfl (.ok path rfl)⟩

theorem StopsOrStepsOn.access (hi : i.isI2c = true) (hc : c.wellFormed = true)
    (mem : ∀ addr count buf, i = .i2cWriteBytes addr count buf → ∀ a, Memory.read s.mem a = Memory.read m a)
    (hp : i.hasPhase s.phase = true) (poll : s.phase.isPoll = false) (abort : s.phase.isAbort = false)
    (byte : HasByte i s.phase s.work.idx) (path : Follows c m (scriptTo i s.phase s.work.idx s.work.byte) es) :
    StopsOrStepsOn i c m s es := by
  cases i2cPhase_of_isI2c hi s with
  | decode h => rw [h] at hp; cases i <;> cases hp
  | wait x n hn h => rw [h, x.phase_isPoll] at poll; cases poll
  | access y h =>
    refine (exec_of_access h).imp (fun ⟨a, _, stuck⟩ => ⟨a, stuck⟩) fun ⟨t, next, acc⟩ => ?_
    obtain ⟨phase, abort, byte, path⟩ := i2cAccess_enters h byte mem path
    refine ⟨t, [y.event], next, acc.hist, by simp [seqEvents, i2cAccess_ofSeq h], fun _ => List.cons_ne_nil _ _, ?_⟩
    rw [acc.phase]
    exact .enter hi hc phase abort acc.polls (by rw [acc.idx]; exact byte) (by rw [acc.idx, acc.byte]; exact path)
  | clear h =>
    rw [h] at path
    exact .inr (.stopfClear hi h path)
  | abStop h => rw [h] at abort; cases abort
  | abPoll h => rw [h] at abort; cases abort
  | abClear h => rw [h] at abort; cases abort
  | stray h => rw [hp] at h; cases h

theorem StepsOn.abStop (hi : i.isI2c = true) (hc : c.wellFormed = true) (hp : s.phase = .i2AbStop)
    (failed : WaitFailed i c m x es) (err : s.work.err = x.err.code) : StepsOn i c m s es :=
  ⟨_, [.pStop], exec_of_abStop hi hp, rfl, rfl, fun _ => List.cons_ne_nil _ _,
    .abPoll (us := []) rfl failed err (by simp) rfl (Config.pollLimit_pos hc) (by simp [statusReads])⟩

/-- The abort's poll that is not the last one sees nothing; the last one may (41_i2c R142). -/
theorem AbortPolled.concat (fails : ∀ u ∈ us, u.getLsbD 4 = false) (left : us.length < c.pollLimit)
    (last : v.getLsbD 4 = true ∨ us.length + 1 = c.pollLimit) : AbortPolled c (us ++ [v]) where
  nonempty := by simp
  length := by simpa using left
  fails := by simpa using fails
  seen := fun h => ⟨v, by simp, last.resolve_right (by simp at h; omega)⟩

theorem StepsOn.abPoll (hi : i.isI2c = true) (hc : s.cfg = c) (hp : s.phase = .i2AbPoll) (failed : WaitFailed i c m x pre)
    (err : s.work.err = x.err.code) (fails : ∀ u ∈ us, u.getLsbD 4 = false) (polls : s.work.polls = us.length)
    (left : us.length < c.pollLimit) : StepsOn i c m s (pre ++ [.pStop] ++ statusReads us) := by
  subst hc
  have reads : pre ++ [.pStop] ++ statusReads us ++ [.pRd .status s.preadValue] =
      pre ++ [.pStop] ++ statusReads (us ++ [s.preadValue]) := by simp [statusReads]
  refine ⟨_, [.pRd .status s.preadValue], exec_of_abPoll hi hp, ?_, rfl, fun _ => List.cons_ne_nil _ _, ?_⟩
  · rcases s.abortPoll_cases with ⟨_, e⟩ | ⟨_, _, e⟩ | ⟨_, _, e⟩ <;> rw [e] <;> rfl
  · rw [reads]
    rcases s.abortPoll_cases with ⟨hv, e⟩ | ⟨_, last, e⟩ | ⟨hv, more, e⟩ <;> rw [e]
    · exact .abClear rfl failed (by simpa using err) (.concat fails left (.inl hv)) rfl
    · exact .abClear rfl failed (by simpa using err) (.concat fails left (.inr (polls ▸ last))) rfl
    · exact .abPoll rfl failed (by simpa using err) (forall_concat fails hv) (by simp [polls])
        (by rw [List.length_append, List.length_singleton]; omega) rfl

theorem StepsOn.abClear (hi : i.isI2c = true) (hp : s.phase = .i2AbClear) (failed : WaitFailed i c m x pre)
    (err : s.work.err = x.err.code) (polled : AbortPolled c us) : StepsOn i c m s (pre ++ [.pStop] ++ statusReads us) := by
  refine ⟨_, _, exec_of_abClear hi hp, by rw [State.abortClear_eq], rfl, fun _ => List.cons_ne_nil _ _, .ended rfl ?_⟩
  exact .error failed polled (by rw [err]; rfl)

/-- A step of a command that is not over goes to the next point, or is stuck at a byte that is not admitted. -/
theorem I2cPoint.step (hi : i.isI2c = true) (hc : c.wellFormed = true) (cfg : s.cfg = c)
    (mem : ∀ addr count buf, i = .i2cWriteBytes addr count buf → ∀ a, Memory.read s.mem a = Memory.read m a)
    (busy : s.phase ≠ .idle) (pt : I2cPoint i c m s.phase s.work es) : StopsOrStepsOn i c m s es := by
  cases pt with
  | decode hp events => subst events; exact .inr (.decode hi hc hp)
  | wait hn hp byte path fails polls events => subst events; exact .inr (.wait cfg hn hp byte path fails polls)
  | access hp poll abort byte path => exact .access hi hc mem hp poll abort byte path
  | abStop hp failed err => exact .inr (.abStop hi hc hp failed err)
  | abPoll hp failed err fails polls left events =>
    subst events; exact .inr (.abPoll hi cfg hp failed err fails polls left)
  | abClear hp failed err polled events => subst events; exact .inr (.abClear hi hp failed err polled)
  | ended hp outcome => exact absurd hp busy

end

end Sys2Proof.Machine
end

section
namespace Sys2Proof.Machine

/-! A run over an I2C command, with the memory it reads (20_memory R73). -/

section
variable {i : Instr} {c : Config} {m : Memory} {s t u : State} {h es : List Event}

/-- What a move of another agent than SEQ leaves, if it issues nothing: SEQ, and its memory while it is busy (60_exceptions R220,
R221, R224). -/
structure State.Rests (s t : State) (es : List Event) : Prop where
  hist : t.hist = s.hist ++ es
  silent : seqEvents es = []
  cfg : t.cfg = s.cfg
  phase : t.phase = s.phase
  cmd : t.cmd = s.cmd
  work : t.work = s.work
  mem : s.phase ≠ .idle → t.mem = s.mem

theorem State.dropMove_rests (s : State) : s.Rests s.dropMove [] := by constructor <;> simp [seqEvents]

theorem State.act_rests {v : Move} (hv : v ≠ .seq) (e : s.act v = .next t) (hist : t.hist = s.hist ++ es)
    (unissued : ∀ d, Event.issue d ∉ es) : s.Rests t es := by
  have same : ∀ {fs}, t.hist = s.hist ++ fs → fs = es := fun e => List.append_cancel_left (e.symm.trans hist)
  have mem : seqEvents es = [] → s.phase ≠ .idle → t.mem = s.mem := fun silent busy => by
    obtain ⟨fs, hist', ⟨_, mem⟩ | ⟨idle, _⟩⟩ := State.act_replaysMove e
    · rw [mem, same hist', replayWrites_of_not_mWr]
      intro a b hm
      have seq : .mWr a b ∈ seqEvents es := List.mem_filter.mpr ⟨hm, rfl⟩
      rw [silent] at seq
      cases seq
    · exact absurd idle busy
  rcases State.act_cases_of_ne_seq hv e with ⟨_, rfl⟩ | ⟨_, rfl⟩ | ⟨d, hist'⟩ | ⟨fs, p⟩
  · obtain rfl := same s.tick_hist
    exact ⟨hist, rfl, rfl, rfl, rfl, rfl, mem rfl⟩
  · obtain rfl := same s.msExpire_hist
    exact ⟨hist, rfl, rfl, rfl, rfl, rfl, mem rfl⟩
  · exact absurd (same hist' ▸ List.mem_singleton_self _) (unissued d)
  · obtain rfl := same p.hist
    exact ⟨hist, p.seqEvents_eq, p.cfg, p.phase, p.cmd, p.work, mem p.seqEvents_eq⟩

/-- An invariant of a run over the command `i` that may speak of memory while SEQ is busy. -/
structure BusyInvariant (i : Instr) (P : State → List Event → Prop) : Prop where
  advance : ∀ {s t h}, P s h → s.phase ≠ .idle → exec i s = .next t → ∃ es, t.hist = s.hist ++ es ∧ P t (h ++ es)
  rest : ∀ {s t h es}, P s h → s.Rests t es → P t (h ++ es)

section
variable {P : State → List Event → Prop}

/-- One step of the machine that issues nothing. -/
theorem BusyInvariant.step (I : BusyInvariant i P) (l : s.Latched i) (h0 : P s h) (e : step s = .next t)
    (hist : t.hist = s.hist ++ es) (unissued : ∀ d, Event.issue d ∉ es) : t.Latched i ∧ P t (h ++ es) := by
  have dropped : P s.dropMove h := by simpa using I.rest h0 s.dropMove_rests
  have hist' : t.hist = s.dropMove.hist ++ es := by simpa using hist
  have latched : s.dropMove.Latched i := by simpa [State.Latched] using l
  by_cases hm : s.move = .seq
  · rw [step_of_move_seq hm] at e
    rcases latched.seqStep_cases e with rfl | ⟨busy, e⟩
    · obtain rfl : es = [] := by simpa using hist'
      exact ⟨latched, by simpa using dropped⟩
    · obtain ⟨fs, hist, ht⟩ := I.advance dropped busy e
      obtain rfl : fs = es := List.append_cancel_left (hist.symm.trans hist')
      exact ⟨by rwa [State.Latched, (exec_effect e).cmd_eq], ht⟩
  · have r := State.act_rests hm e hist' unissued
    exact ⟨by rwa [State.Latched, r.cmd], I.rest dropped r⟩

theorem BusyInvariant.run (I : BusyInvariant i P) {k : Nat} (l : s.Latched i) (h0 : P s h)
    (e : Sys2Proof.core.run k s = .next t) (hist : t.hist = s.hist ++ es) (unissued : ∀ d, Event.issue d ∉ es) :
    P t (h ++ es) := by
  induction k generalizing s h es with
  | zero =>
    cases e
    obtain rfl : es = [] := by simpa using hist
    simpa using h0
  | succ k ih =>
    obtain ⟨y, hy, hr⟩ := core_run_succ_next e
    obtain ⟨fs, stepped, _⟩ := step_appends_le_two hy
    obtain ⟨gs, rest⟩ := run_appends hr
    obtain rfl : fs ++ gs = es := List.append_cancel_left (by rw [← List.append_assoc, ← stepped, ← rest, hist])
    obtain ⟨latched, hP⟩ := I.step l h0 hy stepped fun d hd => unissued d (List.mem_append_left _ hd)
    rw [← List.append_assoc]
    exact ih latched hP hr rest fun d hd => unissued d (List.mem_append_right _ hd)

/-- An invariant that holds at the start of a command holds all along its run. -/
theorem BusyInvariant.of_runOf (I : BusyInvariant i P) {k : Nat} (starts : s.Starts i) (h0 : P s []) (r : RunOf k s t h) :
    P t h :=
  let ⟨e, hist, unissued⟩ := r
  I.run starts.2 h0 e hist unissued

end

/-- Where command `i` is in state `s`, after its run so far appended `h`, under the parameters `c` and from the memory `m`. -/
structure I2cAt (i : Instr) (c : Config) (m : Memory) (s : State) (h : List Event) : Prop where
  cfg : s.cfg = c
  mem : s.phase ≠ .idle → ∀ addr count buf, i = .i2cWriteBytes addr count buf → ∀ a, Memory.read s.mem a = Memory.read m a
  point : I2cPoint i c m s.phase s.work (seqEvents h)

theorem I2cAt.step (hi : i.isI2c = true) (hc : c.wellFormed = true) (a : I2cAt i c m s h) (busy : s.phase ≠ .idle) :
    (∃ a, admits s.cfg a = false ∧ exec i s = .fault (.hmemNotAdmitted a)) ∨
    ∃ t es, exec i s = .next t ∧ t.hist = s.hist ++ es ∧ (s.phase ≠ .decode → seqEvents es ≠ []) ∧ I2cAt i c m t (h ++ es) := by
  refine (a.point.step hi hc a.cfg (a.mem busy) busy).imp_right fun ⟨t, fs, e, hist, seq, records, pt⟩ => ?_
  refine ⟨t, fs, e, hist, by rwa [seq], ?_⟩
  refine ⟨(exec_i2cFrame hi e).cfg.trans a.cfg, fun _ addr count buf w x => ?_, by rwa [seqEvents_append, seq]⟩
  rw [exec_i2c_read hi e (fun _ _ _ _ r => by rw [w] at r; cases r), a.mem busy addr count buf w]

theorem I2cAt.rest (a : I2cAt i c m s h) (r : s.Rests t es) : I2cAt i c m t (h ++ es) where
  cfg := r.cfg.trans a.cfg
  mem := fun busy => by
    rw [r.phase] at busy
    rw [r.mem busy]
    exact a.mem busy
  point := by rw [r.phase, r.work, seqEvents_append, r.silent, List.append_nil]; exact a.point

theorem i2cAt_invariant (hi : i.isI2c = true) (hc : c.wellFormed = true) : BusyInvariant i (I2cAt i c m) where
  advance := fun a busy e => by
    rcases a.step hi hc busy with ⟨_, _, fault⟩ | ⟨u, es, next, hist, _, at_u⟩
    · rw [fault] at e; cases e
    · rw [next] at e; cases e; exact ⟨es, hist, at_u⟩
  rest := I2cAt.rest

theorem I2cAt.of_starts (starts : s.Starts i) : I2cAt i s.cfg s.mem s [] :=
  ⟨rfl, fun _ _ _ _ _ _ => rfl, .decode starts.1 rfl⟩

/-- Where a run over the command has come to. -/
theorem I2cPoint.of_runOf {k : Nat} (hi : i.isI2c = true) (hc : s.cfg.wellFormed = true) (starts : s.Starts i)
    (r : RunOf k s t h) : I2cPoint i s.cfg s.mem t.phase t.work (seqEvents h) :=
  ((i2cAt_invariant hi hc).of_runOf starts (.of_starts starts) r).point

end

/-! The end of a command (60_exceptions R225). -/

section
variable {i : Instr} {c : Config} {m : Memory} {xs : List I2cSegment} {x : Wait} {p : Phase} {w : Work} {es : List Event}
  {e : Code}

theorem complete_not_mem_statusReads (us : List Word) : Event.complete e ∉ statusReads us := by simp [statusReads]

theorem I2cSegment.Matches.complete_not_mem {y : I2cSegment} (h : y.Matches c m es) : Event.complete e ∉ es := by
  cases y with
  | wait w => obtain ⟨vs, _, _, rfl⟩ := h; exact complete_not_mem_statusReads vs
  | ctrl v => obtain rfl := h; simp
  | send b => obtain rfl := h; simp
  | stop => obtain rfl := h; simp
  | fetched a b => obtain ⟨rfl, _⟩ := h; simp
  | transmitted a => obtain rfl := h; simp
  | received b => obtain ⟨v, rfl, _⟩ := h; simp
  | stored a => obtain ⟨v, rfl⟩ := h; simp

theorem Follows.complete_not_mem (h : Follows c m xs es) : Event.complete e ∉ es := by
  induction xs generalizing es with
  | nil => obtain rfl := h; simp
  | cons y xs ih =>
    obtain ⟨fs, gs, rfl, hy, hxs⟩ := h
    simpa using ⟨hy.complete_not_mem, ih hxs⟩

theorem WaitFailed.complete_not_mem (h : WaitFailed i c m x es) : Event.complete e ∉ es := by
  obtain ⟨hn, hx, mode, byte, path, length, fails, rfl⟩ := h
  simpa using ⟨path.complete_not_mem, complete_not_mem_statusReads _⟩

/-- Once a completion is recorded the command is over. -/
theorem I2cPoint.outcome (pt : I2cPoint i c m p w es) (h : .complete e ∈ es) : I2cOutcome i c m es := by
  cases pt with
  | decode hp events => simp [events] at h
  | wait hn hp byte path fails polls events => simp [events, path.complete_not_mem, complete_not_mem_statusReads] at h
  | access hp poll abort byte path => exact absurd h path.complete_not_mem
  | abStop hp failed err => exact absurd h failed.complete_not_mem
  | abPoll hp failed err fails polls left events =>
    simp [events, failed.complete_not_mem, complete_not_mem_statusReads] at h
  | abClear hp failed err polled events => simp [events, failed.complete_not_mem, complete_not_mem_statusReads] at h
  | ended hp outcome => exact outcome

theorem Wait.err_ne_ok (x : Wait) : x.err.code ≠ 0 := by cases x <;> decide

/-- A completion with OK is that of the success path. -/
theorem I2cOutcome.of_ok (o : I2cOutcome i c m es) (h : .complete 0 ∈ es) : ∃ (pre : List Event) (j : BitVec 9) (b : Byte),
    Follows c m (scriptTo i .i2StopfClear j b) pre ∧ es = pre ++ [.pWr .clear clearWord, .complete 0] := by
  cases o with
  | ok path events => exact ⟨_, _, _, path, events⟩
  | busBusy mode length fails events => simp [events, complete_not_mem_statusReads] at h
  | error failed polled events =>
    simp [events, failed.complete_not_mem, complete_not_mem_statusReads] at h
    exact absurd h.symm (Wait.err_ne_ok _)

end

/-! The success path of each command (41_i2c R145, R147, R150). -/

section
variable {c : Config} {m : Memory} {xs : List I2cSegment} {w : Wait} {es : List Event} {addr : Addr7} {data : Byte} {buf : Word}
  {k : Nat} {v : List Word}

/-- The reads of a wait that is over, within the poll limit of `c`. -/
def PassesWithin (c : Config) (w : Wait) (vs : List Word) : Prop :=
  w.passes vs ∧ (c.mode = .bounded → vs.length ≤ c.pollLimit)

theorem follows_concat_wait : Follows c m (xs ++ [.wait w]) es ↔
    ∃ fs vs, es = fs ++ statusReads vs ∧ Follows c m xs fs ∧ PassesWithin c w vs := by
  rw [follows_concat]
  constructor
  · rintro ⟨fs, _, rfl, hxs, vs, hp, hl, rfl⟩
    exact ⟨fs, vs, rfl, hxs, hp, hl⟩
  · rintro ⟨fs, vs, rfl, hxs, hp, hl⟩
    exact ⟨fs, _, rfl, hxs, vs, hp, hl, rfl⟩

theorem follows_concat_ctrl {x : Word} : Follows c m (xs ++ [.ctrl x]) es ↔ ∃ fs, es = fs ++ [.pWr .ctrl x] ∧ Follows c m xs fs := by
  simp [follows_concat, I2cSegment.Matches, and_comm]

theorem follows_concat_send : Follows c m (xs ++ [.send data]) es ↔
    ∃ fs, es = fs ++ [.pWr .txdr (data.setWidth 32)] ∧ Follows c m xs fs := by
  simp [follows_concat, I2cSegment.Matches, and_comm, txdrWord]

theorem follows_concat_stop : Follows c m (xs ++ [.stop]) es ↔ ∃ fs, es = fs ++ [.pStop] ∧ Follows c m xs fs := by
  simp [follows_concat, I2cSegment.Matches, and_comm]

theorem follows_wait : Follows c m [.wait w] es ↔ ∃ vs, es = statusReads vs ∧ PassesWithin c w vs := by
  simpa using follows_concat_wait (c := c) (m := m) (xs := []) (w := w) (es := es)

theorem Follows.of_sentByte (h : Follows c m (sentByte addr data) es) : ∃ v1 v2, PassesWithin c .idle v1 ∧ PassesWithin c .tx v2 ∧
    es = statusReads v1 ++ [.pWr .ctrl (ctrlWord addr 1 false false)] ++ statusReads v2 ++ [.pWr .txdr (data.setWidth 32)] := by
  obtain ⟨_, rfl, toSend⟩ := follows_concat_send.mp h
  obtain ⟨_, v2, rfl, toTx, p2⟩ := follows_concat_wait.mp toSend
  obtain ⟨_, rfl, toStart⟩ := follows_concat_ctrl.mp toTx
  obtain ⟨v1, rfl, p1⟩ := follows_wait.mp toStart
  exact ⟨v1, v2, p1, p2, rfl⟩

/-- Byte `n` after the first is byte `n + 1`, modulo 2^32. -/
theorem add_one_add_ofNat (a : Word) (n : Nat) : a + 1 + BitVec.ofNat 32 n = a + BitVec.ofNat 32 (n + 1) := by
  rw [BitVec.add_assoc, Nat.add_comm, BitVec.ofNat_add]; rfl

theorem txLoopEvents_concat (m : Memory) (a : Word) (vs : List (List Word)) (v : List Word) : txLoopEvents m a (vs ++ [v]) =
    txLoopEvents m a vs ++ statusReads v ++ [.mRd (a + BitVec.ofNat 32 vs.length) (Memory.read m (a + BitVec.ofNat 32 vs.length).toNat),
      .pWr .txdr ((Memory.read m (a + BitVec.ofNat 32 vs.length).toNat).setWidth 32)] := by
  induction vs generalizing a with
  | nil => simp [txLoopEvents]
  | cons u vs ih =>
    simp only [List.cons_append, txLoopEvents, ih, add_one_add_ofNat, List.length_cons, List.append_assoc]

theorem rxLoopEvents_concat (a : Word) (vs : List (List Word × Word)) (v : List Word) (x : Word) :
    rxLoopEvents a (vs ++ [(v, x)]) = rxLoopEvents a vs ++ statusReads v ++
      [.pRd .rxdr x, .mWr (a + BitVec.ofNat 32 vs.length) (x.setWidth 8)] := by
  induction vs generalizing a with
  | nil => simp [rxLoopEvents]
  | cons u vs ih =>
    simp only [List.cons_append, rxLoopEvents, ih, add_one_add_ofNat, List.length_cons, List.append_assoc]

theorem Follows.of_transmits (h : Follows c m (transmits buf k) es) :
    ∃ vs : List (List Word), vs.length = k ∧ (∀ v ∈ vs, PassesWithin c .tx v) ∧ es = txLoopEvents m buf vs := by
  induction k generalizing es with
  | zero => exact ⟨[], rfl, by simp, h⟩
  | succ k ih =>
    rw [transmits_succ] at h
    obtain ⟨_, _, rfl, toByte, rfl⟩ := follows_concat.mp h
    obtain ⟨_, v, rfl, toWait, p⟩ := follows_concat_wait.mp toByte
    obtain ⟨vs, rfl, ps, rfl⟩ := ih toWait
    exact ⟨vs ++ [v], by simp, by simpa [or_imp, forall_and] using ⟨ps, p⟩, (txLoopEvents_concat m buf vs v).symm⟩

theorem Follows.of_receives (h : Follows c m (receives buf k) es) :
    ∃ vs : List (List Word × Word), vs.length = k ∧ (∀ v ∈ vs, PassesWithin c .rx v.1) ∧ es = rxLoopEvents buf vs := by
  induction k generalizing es with
  | zero => exact ⟨[], rfl, by simp, h⟩
  | succ k ih =>
    rw [receives_succ] at h
    obtain ⟨_, _, rfl, toByte, x, rfl⟩ := follows_concat.mp h
    obtain ⟨_, v, rfl, toWait, p⟩ := follows_concat_wait.mp toByte
    obtain ⟨vs, rfl, ps, rfl⟩ := ih toWait
    refine ⟨vs ++ [(v, x)], by simp, fun u hu => ?_, (rxLoopEvents_concat buf vs v x).symm⟩
    rcases List.mem_append.mp hu with hu | hu
    · exact ps u hu
    · rw [List.mem_singleton.mp hu]; exact p

end

/-- SEQ's events up to the clear, of a run over the command that ends with OK. -/
theorem follows_of_runOf_ok {i : Instr} {k : Nat} {s t : State} {h : List Event} (hi : i.isI2c = true)
    (hc : s.cfg.wellFormed = true) (starts : s.Starts i) (r : RunOf k s t h) (ok : .complete 0 ∈ h) :
    ∃ (pre : List Event) (j : BitVec 9) (b : Byte), Follows s.cfg s.mem (scriptTo i .i2StopfClear j b) pre ∧
      seqEvents h = pre ++ [.pWr .clear clearWord, .complete 0] :=
  have mem := mem_seqEvents_complete ok
  ((I2cPoint.of_runOf hi hc starts r).outcome mem).of_ok mem

/-- Settles O32: the events of a run that ends with OK follow the command's script. -/
theorem writeByteTrace : Obligations.WriteByteTrace := by
  intro addr data k s t h hc starts r ok
  obtain ⟨pre, j, b, path, events⟩ := follows_of_runOf_ok rfl hc starts r ok
  obtain ⟨_, v4, rfl, toStopf, ⟨p4, l4⟩⟩ := follows_concat_wait.mp path
  obtain ⟨_, rfl, toStop⟩ := follows_concat_stop.mp toStopf
  obtain ⟨_, v3, rfl, toTc, ⟨p3, l3⟩⟩ := follows_concat_wait.mp toStop
  obtain ⟨v1, v2, ⟨p1, l1⟩, ⟨p2, l2⟩, rfl⟩ := toTc.of_sentByte
  exact ⟨v1, v2, v3, v4, p1, p2, p3, p4, fun mode => by simpa using ⟨l1 mode, l2 mode, l3 mode, l4 mode⟩, events⟩

/-- Settles O33: likewise, where the script holds the transmit loop over the whole buffer. -/
theorem writeBytesTrace : Obligations.WriteBytesTrace := by
  intro addr count buf k s t h hc starts r ok
  obtain ⟨pre, j, b, path, events⟩ := follows_of_runOf_ok rfl hc starts r ok
  obtain ⟨_, v4, rfl, toStopf, ⟨p4, l4⟩⟩ := follows_concat_wait.mp path
  obtain ⟨_, rfl, toStop⟩ := follows_concat_stop.mp toStopf
  obtain ⟨_, v3, rfl, toTc, ⟨p3, l3⟩⟩ := follows_concat_wait.mp toStop
  obtain ⟨_, _, rfl, toLoop, loop⟩ := follows_append.mp toTc
  obtain ⟨_, rfl, toStart⟩ := follows_concat_ctrl.mp toLoop
  obtain ⟨v1, rfl, ⟨p1, l1⟩⟩ := follows_wait.mp toStart
  obtain ⟨vs, length, ps, rfl⟩ := loop.of_transmits
  refine ⟨v1, v3, v4, vs, p1, length, fun v hv => (ps v hv).1, p3, p4, fun mode => ?_, events⟩
  simpa using ⟨l1 mode, l3 mode, l4 mode, fun v hv => (ps v hv).2 mode⟩

/-- Settles O34: likewise, where the script holds the receive loop over the whole buffer, and no STOP. -/
theorem readBytesTrace : Obligations.ReadBytesTrace := by
  intro addr reg count buf k s t h hc starts r ok
  obtain ⟨pre, j, b, path, events⟩ := follows_of_runOf_ok rfl hc starts r ok
  obtain ⟨_, v4, rfl, toStopf, ⟨p4, l4⟩⟩ := follows_concat_wait.mp path
  obtain ⟨_, _, rfl, toLoop, loop⟩ := follows_append.mp toStopf
  obtain ⟨_, rfl, toRestart⟩ := follows_concat_ctrl.mp toLoop
  obtain ⟨_, v3, rfl, toTc, ⟨p3, l3⟩⟩ := follows_concat_wait.mp toRestart
  obtain ⟨v1, v2, ⟨p1, l1⟩, ⟨p2, l2⟩, rfl⟩ := toTc.of_sentByte
  obtain ⟨vs, length, ps, rfl⟩ := loop.of_receives
  refine ⟨v1, v2, v3, v4, vs, p1, p2, p3, length, fun v hv => (ps v hv).1, p4, fun mode => ?_, events⟩
  have loop : ∀ v ∈ vs.map Prod.fst, v.length ≤ s.cfg.pollLimit := by
    rintro _ hv
    obtain ⟨u, hu, rfl⟩ := List.mem_map.mp hv
    exact (ps u hu).2 mode
  simpa only [List.forall_mem_cons] using ⟨l1 mode, l2 mode, l3 mode, l4 mode, loop⟩

end Sys2Proof.Machine
end

section
namespace Sys2Proof.Machine

/-! What a script counts (41_i2c R148, R152, 70_reset R261). -/

/-- The `TXDR` writes of a segment. -/
def I2cSegment.sends : I2cSegment → Nat
  | .send _ => 1
  | .transmitted _ => 1
  | _ => 0

/-- The STOPs of a segment. -/
def I2cSegment.stops : I2cSegment → Nat
  | .stop => 1
  | _ => 0

/-- The waits of a segment. -/
def I2cSegment.waits : I2cSegment → Nat
  | .wait _ => 1
  | _ => 0

/-- The accesses of a segment that are no polls. -/
def I2cSegment.accesses : I2cSegment → Nat
  | .wait _ => 0
  | .transmitted _ => 2
  | .stored _ => 2
  | _ => 1

/-- The sum of a count over a script. -/
def total (f : I2cSegment → Nat) (xs : List I2cSegment) : Nat := (xs.map f).sum

/-- An event that polls: a read of `STATUS`. -/
def Event.isPoll : Event → Bool
  | .pRd .status _ => true
  | _ => false

section
variable {c : Config} {m : Memory} {xs : List I2cSegment} {es : List Event} {f : I2cSegment → Nat} {buf : Word} {k : Nat}

@[simp] theorem total_nil : total f [] = 0 := rfl

@[simp] theorem total_cons (x : I2cSegment) : total f (x :: xs) = f x + total f xs := by simp [total]

@[simp] theorem total_append (ys : List I2cSegment) : total f (xs ++ ys) = total f xs + total f ys := by simp [total]

/-- Every byte of the transmit loop counts the same. -/
theorem total_transmits (hf : ∀ a, f (.transmitted a) = f (.transmitted 0)) :
    total f (transmits buf k) = k * (f (.wait .tx) + f (.transmitted 0)) := by
  induction k with
  | zero => simp [transmits]
  | succ k ih => rw [transmits_succ]; simp [ih, hf, Nat.succ_mul]

/-- Every byte of the receive loop counts the same. -/
theorem total_receives (hf : ∀ a, f (.stored a) = f (.stored 0)) :
    total f (receives buf k) = k * (f (.wait .rx) + f (.stored 0)) := by
  induction k with
  | zero => simp [receives]
  | succ k ih => rw [receives_succ]; simp [ih, hf, Nat.succ_mul]

/-- The events that are no polls. -/
def accessCount (h : List Event) : Nat := h.countP fun e => !e.isPoll

theorem txCount_append (h k : List Event) : txCount (h ++ k) = txCount h + txCount k := List.countP_append

theorem stopCount_append (h k : List Event) : stopCount (h ++ k) = stopCount h + stopCount k := List.count_append

theorem pollCount_append (h k : List Event) : pollCount (h ++ k) = pollCount h + pollCount k := List.countP_append

/-- A poll is SEQ's. -/
theorem pollCount_seqEvents (h : List Event) : pollCount (seqEvents h) = pollCount h := by
  rw [pollCount, seqEvents, List.countP_filter]
  refine List.countP_congr fun e _ => ?_
  cases e with
  | pRd r v => rw [show Event.ofSeq (.pRd r v) = true from rfl, Bool.and_true]
  | _ => exact ⟨fun h => by simp at h, fun h => by cases h⟩

theorem accessCount_append (h k : List Event) : accessCount (h ++ k) = accessCount h + accessCount k := List.countP_append

theorem length_eq_pollCount_add_accessCount (h : List Event) : h.length = pollCount h + accessCount h := by
  rw [List.length_eq_countP_add_countP Event.isPoll]
  simp [accessCount]; rfl

theorem pollCount_statusReads (us : List Word) : pollCount (statusReads us) = us.length := by
  simp [pollCount, statusReads, List.countP_map, Function.comp_def]

theorem accessCount_statusReads (us : List Word) : accessCount (statusReads us) = 0 := by
  simp [accessCount, statusReads, Event.isPoll]

/-- What SEQ's events count, where their `TXDR` writes, STOPs, waits and other accesses are told: of a wait at most `POLL_LIMIT`
reads in `BOUNDED` mode (41_i2c R152). -/
structure EventCounts (c : Config) (es : List Event) (sends stops waits accesses : Nat) : Prop where
  sends : txCount es = sends
  stops : stopCount es = stops
  polls : c.mode = .bounded → pollCount es ≤ c.pollLimit * waits
  accesses : accessCount es = accesses

theorem I2cSegment.Matches.counts {x : I2cSegment} (h : x.Matches c m es) : EventCounts c es x.sends x.stops x.waits x.accesses := by
  cases x with
  | wait w =>
    obtain ⟨vs, _, within, rfl⟩ := h
    refine ⟨by simp [txCount, statusReads, sends], by simp [stopCount, statusReads, stops, List.count_eq_zero],
      fun mode => ?_, accessCount_statusReads vs⟩
    simpa [pollCount_statusReads, waits] using within mode
  | ctrl v => obtain rfl := h; exact ⟨rfl, rfl, fun _ => Nat.zero_le _, rfl⟩
  | send b => obtain rfl := h; exact ⟨rfl, rfl, fun _ => Nat.zero_le _, rfl⟩
  | stop => obtain rfl := h; exact ⟨rfl, rfl, fun _ => Nat.zero_le _, rfl⟩
  | fetched a b => obtain ⟨rfl, _⟩ := h; exact ⟨rfl, rfl, fun _ => Nat.zero_le _, rfl⟩
  | transmitted a => obtain rfl := h; exact ⟨rfl, rfl, fun _ => Nat.zero_le _, rfl⟩
  | received b => obtain ⟨v, rfl, _⟩ := h; exact ⟨rfl, rfl, fun _ => Nat.zero_le _, rfl⟩
  | stored a => obtain ⟨v, rfl⟩ := h; exact ⟨rfl, rfl, fun _ => Nat.zero_le _, rfl⟩

theorem Follows.counts (h : Follows c m xs es) : EventCounts c es (total I2cSegment.sends xs) (total I2cSegment.stops xs)
    (total I2cSegment.waits xs) (total I2cSegment.accesses xs) := by
  induction xs generalizing es with
  | nil => obtain rfl := h; exact ⟨rfl, rfl, fun _ => Nat.zero_le _, rfl⟩
  | cons x xs ih =>
    obtain ⟨fs, gs, rfl, hx, hxs⟩ := h
    obtain ⟨sends, stops, polls, accesses⟩ := hx.counts
    obtain ⟨sends', stops', polls', accesses'⟩ := ih hxs
    refine ⟨by rw [txCount_append, sends, sends', total_cons], by rw [stopCount_append, stops, stops', total_cons], fun mode => ?_,
      by rw [accessCount_append, accesses, accesses', total_cons]⟩
    rw [pollCount_append, total_cons, Nat.mul_add]
    exact Nat.add_le_add (polls mode) (polls' mode)

end

/-- What the script to phase `p` of command `i` counts, against what the command does in all; at a poll phase one more wait is in
progress (41_i2c R148, R152). -/
structure ScriptBounds (i : Instr) (p : Phase) (xs : List I2cSegment) : Prop where
  sends : total I2cSegment.sends xs ≤ i.txBytes
  stops : total I2cSegment.stops xs = if (p = .i2StopfPoll ∨ p = .i2StopfClear) ∧ i.waitNext .rx = none then 1 else 0
  waits : total I2cSegment.waits xs + p.isPoll.toNat ≤ i.waitSteps
  accesses : total I2cSegment.accesses xs ≤ i.plainAccesses

section
variable {i : Instr} {p : Phase} {j : BitVec 9} {b : Byte} {f : I2cSegment → Nat} {addr : Addr7} {data reg count : Byte}
  {buf : Word} {k n : Nat}

theorem total_sentByte : total f (sentByte addr data) =
    f (.wait .idle) + f (.ctrl (ctrlWord addr 1 false false)) + f (.wait .tx) + f (.send data) := by
  simp [sentByte, Nat.add_assoc]

theorem total_sentBytes (hf : ∀ a, f (.transmitted a) = f (.transmitted 0)) : total f (sentBytes addr count buf k) =
    f (.wait .idle) + f (.ctrl (ctrlWord addr count false false)) + k * (f (.wait .tx) + f (.transmitted 0)) := by
  simp [sentBytes, total_transmits hf, Nat.add_assoc]

theorem total_receivedBytes (hf : ∀ a, f (.stored a) = f (.stored 0)) : total f (receivedBytes addr reg count buf k) =
    total f (sentByte addr reg) + f (.wait .tc) + f (.ctrl (ctrlWord addr count true true)) +
      k * (f (.wait .rx) + f (.stored 0)) := by
  simp [receivedBytes, total_receives hf, Nat.add_assoc]

/-- Nothing is recorded yet. -/
theorem ScriptBounds.nil (hi : i.isI2c = true) (hp : p ≠ .i2StopfPoll) (hp' : p ≠ .i2StopfClear) : ScriptBounds i p [] where
  sends := Nat.zero_le _
  stops := by simp [hp, hp']
  waits := by
    have wait : 1 ≤ i.waitSteps := by
      cases i <;> simp [Instr.isI2c, Instr.waitSteps] at hi ⊢
    simpa using (Bool.toNat_le _).trans wait
  accesses := Nat.zero_le _

theorem sentBytes_totals (addr : Addr7) (count : Byte) (buf : Word) (k : Nat) :
    total I2cSegment.sends (sentBytes addr count buf k) = k ∧ total I2cSegment.stops (sentBytes addr count buf k) = 0 ∧
    total I2cSegment.waits (sentBytes addr count buf k) = k + 1 ∧
    total I2cSegment.accesses (sentBytes addr count buf k) = 2 * k + 1 := by
  refine ⟨?_, ?_, ?_, ?_⟩ <;> rw [total_sentBytes fun _ => rfl] <;>
    simp only [I2cSegment.sends, I2cSegment.stops, I2cSegment.waits, I2cSegment.accesses] <;> omega

theorem receivedBytes_totals (addr : Addr7) (reg count : Byte) (buf : Word) (k : Nat) :
    total I2cSegment.sends (receivedBytes addr reg count buf k) = 1 ∧
    total I2cSegment.stops (receivedBytes addr reg count buf k) = 0 ∧
    total I2cSegment.waits (receivedBytes addr reg count buf k) = k + 3 ∧
    total I2cSegment.accesses (receivedBytes addr reg count buf k) = 2 * k + 3 := by
  refine ⟨?_, ?_, ?_, ?_⟩ <;> rw [total_receivedBytes fun _ => rfl, total_sentByte] <;>
    simp only [I2cSegment.sends, I2cSegment.stops, I2cSegment.waits, I2cSegment.accesses] <;> omega

theorem writeByteScript_bounds : ScriptBounds (.i2cWriteByte addr data) p (writeByteScript addr data p) := by
  unfold writeByteScript
  split
  case h_8 => exact .nil rfl ‹_› ‹_›
  all_goals constructor <;> simp [total_sentByte, I2cSegment.sends, I2cSegment.stops, I2cSegment.waits, I2cSegment.accesses,
    Phase.isPoll, Instr.txBytes, Instr.waitSteps, Instr.plainAccesses, Instr.waitNext]

theorem writeBytesScript_bounds (byte : HasByte (.i2cWriteBytes addr count buf) p j) :
    ScriptBounds (.i2cWriteBytes addr count buf) p (writeBytesScript addr count buf p j b) := by
  have all := sentBytes_totals addr count buf
  unfold writeBytesScript
  split
  case h_9 => exact .nil rfl ‹_› ‹_›
  case h_2 | h_3 | h_4 =>
    have lt : j.toNat < count.toNat := byte count rfl
    constructor <;> simp [all, I2cSegment.sends, I2cSegment.stops, I2cSegment.waits, I2cSegment.accesses,
      Phase.isPoll, Instr.txBytes, Instr.waitSteps, Instr.plainAccesses, Instr.waitNext] <;> omega
  all_goals constructor <;> simp [all, I2cSegment.sends, I2cSegment.stops, I2cSegment.waits, I2cSegment.accesses,
    Phase.isPoll, Instr.txBytes, Instr.waitSteps, Instr.plainAccesses, Instr.waitNext]

theorem readBytesScript_bounds (byte : HasByte (.i2cReadBytes addr reg count buf) p j) :
    ScriptBounds (.i2cReadBytes addr reg count buf) p (readBytesScript addr reg count buf p j b) := by
  have all := receivedBytes_totals addr reg count buf
  unfold readBytesScript
  split
  case h_11 => exact .nil rfl ‹_› ‹_›
  case h_6 | h_7 | h_8 =>
    have lt : j.toNat < count.toNat := byte count rfl
    constructor <;> simp [all, I2cSegment.sends, I2cSegment.stops, I2cSegment.waits,
      I2cSegment.accesses, Phase.isPoll, Instr.txBytes, Instr.waitSteps, Instr.plainAccesses, Instr.waitNext] <;> omega
  all_goals constructor <;> simp [all, total_sentByte, I2cSegment.sends, I2cSegment.stops, I2cSegment.waits, I2cSegment.accesses,
    Phase.isPoll, Instr.txBytes, Instr.waitSteps, Instr.plainAccesses, Instr.waitNext]

theorem scriptTo_bounds (hi : i.isI2c = true) (byte : HasByte i p j) : ScriptBounds i p (scriptTo i p j b) := by
  cases i with
  | i2cWriteByte addr data => exact writeByteScript_bounds
  | i2cWriteBytes addr count buf => exact writeBytesScript_bounds byte
  | i2cReadBytes addr reg count buf => exact readBytesScript_bounds byte
  | _ => cases hi

end

/-! The ends of a command, and its length in `BOUNDED` mode (O35, O36). -/

section
variable {i : Instr} {c : Config} {m : Memory} {x : Wait} {p : Phase} {w : Work} {es : List Event} {e : Code} {us : List Word}

theorem WaitFailed.isI2c (f : WaitFailed i c m x es) : i.isI2c = true :=
  let ⟨hn, _, _, _, _, _, _, _⟩ := f
  (waitNext_spec hn).1

/-- Before an abort there were at most the command's `TXDR` writes, and one STOP if a write command's STOP wait failed. -/
theorem WaitFailed.split (f : WaitFailed i c m x es) : ∃ (pre : List Event) (us : List Word), us.length = c.pollLimit ∧
    (∀ u ∈ us, x.holds u = false) ∧ txCount pre ≤ i.txBytes ∧
    stopCount pre = (if x = .stopf ∧ i.waitNext .rx = none then 1 else 0) ∧ es = pre ++ statusReads us := by
  obtain ⟨hn, hx, mode, byte, path, length, fails, rfl⟩ := f
  obtain ⟨sends, stops, -, -⟩ := path.counts
  obtain ⟨le, eq, -, -⟩ := scriptTo_bounds (waitNext_spec hn).1 byte
  refine ⟨_, _, length, fails, sends ▸ le, ?_, rfl⟩
  rw [stops, eq]
  cases x <;> simp [Wait.phase]

theorem mode_of_error (o : I2cOutcome i c m es) (h : .complete e ∈ es) (he : e ≠ 0) : c.mode = .bounded := by
  cases o with
  | ok path events =>
    simp [events, path.complete_not_mem] at h
    exact absurd h he
  | busBusy mode length fails events => exact mode
  | error failed polled events =>
    obtain ⟨_, _, mode, _, _, _, _, _⟩ := failed
    exact mode

/-- Settles O35: an outcome that is not OK is the failure of WaitIdle, or an abort after another wait's failure. -/
theorem i2cErrorTrace : Obligations.I2cErrorTrace := by
  intro i k s t h e hi hc starts r hm he
  have mem := mem_seqEvents_complete hm
  have o := (I2cPoint.of_runOf hi hc starts r).outcome mem
  refine ⟨mode_of_error o mem he, ?_⟩
  cases o with
  | ok path events =>
    simp [events, path.complete_not_mem] at mem
    exact absurd mem he
  | busBusy mode length fails events =>
    simp [events, complete_not_mem_statusReads] at mem
    exact .inl ⟨mem, _, length, fails, events⟩
  | @error x _ vs failed polled events =>
    have hx : x ≠ .idle := let ⟨_, hx, _, _, _, _, _, _⟩ := failed; hx
    have last : e = x.err.code := by
      simpa [events, failed.complete_not_mem, complete_not_mem_statusReads] using mem
    obtain ⟨pre, us, length, fails, sends, stops, rfl⟩ := failed.split
    obtain ⟨nonempty, within, unseen, seen⟩ := polled
    exact .inr ⟨x, pre, us, vs, hx, last, length, fails, nonempty, within, unseen, seen, sends, stops, last ▸ events⟩

/-- In `BOUNDED` mode each wait that is over polled at most `POLL_LIMIT` times; at a poll phase one more wait is to come
(41_i2c R152). -/
theorem Follows.bounds {j : BitVec 9} {b : Byte} (h : Follows c m (scriptTo i p j b) es) (hi : i.isI2c = true)
    (mode : c.mode = .bounded) (byte : HasByte i p j) :
    pollCount es + c.pollLimit * p.isPoll.toNat ≤ c.pollLimit * i.waitSteps ∧ accessCount es ≤ i.plainAccesses := by
  obtain ⟨-, -, polls, accesses⟩ := h.counts
  obtain ⟨-, -, waits, le⟩ := scriptTo_bounds (b := b) hi byte
  refine ⟨?_, accesses ▸ le⟩
  calc pollCount es + c.pollLimit * p.isPoll.toNat
      ≤ c.pollLimit * total I2cSegment.waits (scriptTo i p j b) + c.pollLimit * p.isPoll.toNat :=
        Nat.add_le_add_right (polls mode) _
    _ = c.pollLimit * (total I2cSegment.waits (scriptTo i p j b) + p.isPoll.toNat) := (Nat.mul_add _ _ _).symm
    _ ≤ c.pollLimit * i.waitSteps := Nat.mul_le_mul_left _ waits

/-- The same with a wait in progress or failed, after `us` reads. -/
theorem Follows.wait_bounds {j : BitVec 9} {b : Byte} (h : Follows c m (scriptTo i x.phase j b) es) (hi : i.isI2c = true)
    (mode : c.mode = .bounded) (byte : HasByte i x.phase j) (us : List Word) (hu : us.length ≤ c.pollLimit) :
    pollCount (es ++ statusReads us) ≤ c.pollLimit * i.waitSteps ∧ accessCount (es ++ statusReads us) ≤ i.plainAccesses := by
  obtain ⟨polls, accesses⟩ := h.bounds hi mode byte
  rw [x.phase_isPoll, Bool.toNat_true, Nat.mul_one] at polls
  rw [pollCount_append, accessCount_append, pollCount_statusReads, accessCount_statusReads]
  exact ⟨by omega, accesses⟩

theorem WaitFailed.bounds (f : WaitFailed i c m x es) :
    pollCount es ≤ c.pollLimit * i.waitSteps ∧ accessCount es ≤ i.plainAccesses := by
  have hi := f.isI2c
  obtain ⟨hn, hx, mode, byte, path, length, fails, rfl⟩ := f
  exact path.wait_bounds hi mode byte _ length.le

theorem needsByte_stopfClear (i : Instr) : i.needsByte .i2StopfClear = none := by cases i <;> rfl

theorem I2cOutcome.pollCount_le (hi : i.isI2c = true) (mode : c.mode = .bounded) (o : I2cOutcome i c m es) :
    pollCount es ≤ c.pollLimit * i.waitSteps + c.pollLimit := by
  cases o with
  | @ok pre j b path events =>
    obtain ⟨polls, -⟩ := path.bounds hi mode (hasByte_of_none (needsByte_stopfClear i))
    rw [events, pollCount_append]
    exact (Nat.add_le_add_right (Nat.le_of_add_right_le polls) _).trans (Nat.add_le_add_left (Nat.zero_le _) _)
  | @busBusy us mode length fails events =>
    rw [events, pollCount_append, pollCount_statusReads, length]
    exact Nat.le_add_left _ _
  | @error x pre us failed polled events =>
    obtain ⟨polls, -⟩ := failed.bounds
    have both : pollCount pre + us.length ≤ c.pollLimit * i.waitSteps + c.pollLimit := Nat.add_le_add polls polled.length
    rw [events, pollCount_append, pollCount_append, pollCount_append, pollCount_statusReads]
    exact both

/-- One more wait than the command has, for the abort. -/
theorem I2cPoint.pollCount_le (hi : i.isI2c = true) (mode : c.mode = .bounded) (pt : I2cPoint i c m p w es) :
    pollCount es ≤ c.pollLimit * i.waitSteps + c.pollLimit := by
  cases pt with
  | decode hp events => rw [events]; exact Nat.zero_le _
  | @wait x n pre us hn hp byte path fails polls events =>
    rw [events]
    exact Nat.le_add_right_of_le (path.wait_bounds hi mode byte us (polls mode).2.le).1
  | access hp poll abort byte path =>
    exact Nat.le_add_right_of_le (Nat.le_of_add_right_le (path.bounds hi mode byte).1)
  | abStop hp failed err => exact Nat.le_add_right_of_le failed.bounds.1
  | abPoll hp failed err fails polls left events =>
    rw [events, pollCount_append, pollCount_append, pollCount_statusReads]
    exact Nat.add_le_add failed.bounds.1 left.le
  | abClear hp failed err polled events =>
    rw [events, pollCount_append, pollCount_append, pollCount_statusReads]
    exact Nat.add_le_add failed.bounds.1 polled.length
  | ended hp outcome => exact outcome.pollCount_le hi mode

theorem I2cPoint.accessCount_le (hi : i.isI2c = true) (mode : c.mode = .bounded) (busy : p ≠ .idle)
    (pt : I2cPoint i c m p w es) : accessCount es ≤ i.plainAccesses + 1 := by
  cases pt with
  | decode hp events => rw [events]; exact Nat.zero_le _
  | @wait x n pre us hn hp byte path fails polls events =>
    rw [events]
    exact Nat.le_add_right_of_le (path.wait_bounds hi mode byte us (polls mode).2.le).2
  | access hp poll abort byte path => exact Nat.le_add_right_of_le (path.bounds hi mode byte).2
  | abStop hp failed err => exact Nat.le_add_right_of_le failed.bounds.2
  | abPoll hp failed err fails polls left events =>
    rw [events, accessCount_append, accessCount_append, accessCount_statusReads]
    exact Nat.add_le_add_right failed.bounds.2 1
  | abClear hp failed err polled events =>
    rw [events, accessCount_append, accessCount_append, accessCount_statusReads]
    exact Nat.add_le_add_right failed.bounds.2 1
  | ended hp outcome => exact absurd hp busy

/-- Until its end a command has recorded no more than its polls, its other accesses and the abort's STOP. -/
theorem I2cPoint.length_le (hi : i.isI2c = true) (mode : c.mode = .bounded) (busy : p ≠ .idle) (pt : I2cPoint i c m p w es) :
    es.length ≤ c.pollLimit * i.waitSteps + c.pollLimit + (i.plainAccesses + 1) := by
  rw [length_eq_pollCount_add_accessCount]
  exact Nat.add_le_add (pt.pollCount_le hi mode) (pt.accessCount_le hi mode busy)

end

section
variable {i : Instr} {c : Config} {m : Memory} {s t : State} {h es : List Event} {p : Phase} {w : Work}

theorem I2cPoint.ne_decode (pt : I2cPoint i c m p w es) (hs : es ≠ []) : p ≠ .decode := by
  rintro rfl
  cases pt with
  | decode hp events => exact hs events
  | @wait x _ _ _ hn hp byte path fails polls events => cases x <;> cases hp
  | access hp poll abort byte path => cases i <;> cases hp
  | abStop hp failed err => cases hp
  | abPoll hp failed err fails polls left events => cases hp
  | abClear hp failed err polled events => cases hp
  | ended hp outcome => cases hp

theorem State.seqRun_succ {n : Nat} (h : s.seqStep = .next t) : s.seqRun (n + 1) = t.seqRun n := by
  simp [State.seqRun, h]

theorem State.seqRun_of_idle (hp : s.phase = .idle) (n : Nat) : s.seqRun n = .next s := by
  induction n with
  | zero => rfl
  | succ n ih => rw [State.seqRun_succ (State.seqStep_of_idle hp), ih]

/-- `n` turns of SEQ after `DECODE` end the command, or are stuck, or record at least `n` events. -/
theorem I2cAt.seqRun (hi : i.isI2c = true) (hc : c.wellFormed = true) (l : s.Latched i) (hf : s.faults.clockReinit = false)
    (a : I2cAt i c m s h) (begun : s.phase ≠ .decode) (n : Nat) :
    (∃ a, admits s.cfg a = false ∧ s.seqRun n = .fault (.hmemNotAdmitted a)) ∨
    ∃ t k, s.seqRun n = .next t ∧ I2cAt i c m t k ∧ (t.phase = .idle ∨ n + (seqEvents h).length ≤ (seqEvents k).length) := by
  induction n generalizing s h with
  | zero => exact .inr ⟨s, h, rfl, a, .inr (by simp)⟩
  | succ n ih =>
    by_cases idle : s.phase = .idle
    · exact .inr ⟨s, h, State.seqRun_of_idle idle _, a, .inl idle⟩
    · have turn := l.seqStep_eq hf idle
      rcases a.step hi hc idle with ⟨x, hx, fault⟩ | ⟨u, es, next, hist, records, at_u⟩
      · exact .inl ⟨x, hx, by simp [State.seqRun, turn, fault]⟩
      · have recorded := records begun
        have frame := exec_i2cFrame hi next
        have begun_u : u.phase ≠ .decode := at_u.point.ne_decode (by simp [recorded])
        rw [State.seqRun_succ (turn.trans next)]
        rcases ih (by rwa [State.Latched, frame.cmd]) (by rwa [frame.faults]) at_u begun_u with ⟨x, hx, stuck⟩ | ⟨t, k, run, at_t, long⟩
        · exact .inl ⟨x, frame.cfg ▸ hx, stuck⟩
        · refine .inr ⟨t, k, run, at_t, long.imp_right fun le => ?_⟩
          have pos := List.length_pos_iff.mpr recorded
          rw [seqEvents_append, List.length_append] at le
          omega

/-- Settles O36: the polls by the invariant, and the turns because each of them records an event, of which there are not more. -/
theorem boundedEnds : Obligations.BoundedEnds := by
  refine ⟨fun i k s t h hi hc mode starts r => ?_, fun i n s hi hc mode starts hf hn => ?_⟩
  · rw [Nat.mul_add_one]
    exact (pollCount_seqEvents h).ge.trans ((I2cPoint.of_runOf hi hc starts r).pollCount_le hi mode)
  · rw [Nat.mul_add_one] at hn
    obtain ⟨n, rfl⟩ : ∃ k, n = k + 1 := ⟨n - 1, by omega⟩
    have busy : s.phase ≠ .idle := by simp [starts.1]
    have turn : s.seqStep = exec i s := State.Latched.seqStep_eq starts.2 hf busy
    rcases (I2cAt.of_starts starts).step hi hc busy with ⟨a, ha, fault⟩ | ⟨u, es, next, _, _, at_u⟩
    · exact .inl ⟨a, ha, by simp [State.seqRun, turn, fault]⟩
    · have frame := exec_i2cFrame hi next
      have begun : u.phase ≠ .decode := by
        rw [exec_of_decode_i2c hi starts.1] at next
        cases next; nofun
      rw [State.seqRun_succ (turn.trans next)]
      have latched : u.Latched i := by rw [State.Latched, frame.cmd]; exact starts.2
      rcases at_u.seqRun hi hc latched (by rwa [frame.faults]) begun n with ⟨a, ha, stuck⟩ | ⟨t, k, run, at_t, idle | long⟩
      · exact .inl ⟨a, frame.cfg ▸ ha, stuck⟩
      · exact .inr ⟨t, run, idle⟩
      · refine .inr ⟨t, run, not_not.mp fun busy => ?_⟩
        have le := at_t.point.length_le hi mode busy
        omega

end
end Sys2Proof.Machine
end

/-! ### SEQ's turns at the I2C commands, on given reads (O37 to O39) -/

section
namespace Sys2Proof.Machine

section
variable {i : Instr} {c : Config} {s t u : State} {d : Draw} {ds rest : List Draw} {n m : Nat} {p q : Phase} {j k : BitVec 9}
  {es fs : List Event} {w : Wait} {v : Word} {vs : List Word} {y : I2cAccess}

/-- The next draw is the oldest pending one. -/
theorem State.draw_of_pending (h : s.env.draws = d :: ds) : s.draw = d ∧ s.dropDraw.env.draws = ds := by
  simp [State.draw, State.dropDraw, h]

theorem Wait.phase_ne_idle (w : Wait) : w.phase ≠ .idle := by cases w <;> nofun

theorem Wait.phase_ne_decode (w : Wait) : w.phase ≠ .decode := by cases w <;> nofun

/-- At a wait of the command in `C_OP` SEQ's turn is the wait step (41_i2c R140). -/
theorem State.seqStep_of_wait (hf : s.faults.clockReinit = false) (instr : s.cmd.instr = some i) (hn : i.waitNext w = some q)
    (hp : s.phase = w.phase) : s.seqStep = .next (s.waitStep w q) := by
  rcases State.seqStep_cases (s := s) rfl with ⟨h, _⟩ | ⟨_, h, _⟩ | ⟨_, h, _⟩ | ⟨_, _, _, h⟩
  · rw [State.seqFaulted, hf] at h; cases h
  · exact absurd (hp.symm.trans h) w.phase_ne_idle
  · exact absurd (hp.symm.trans h) w.phase_ne_decode
  · rw [h, State.phaseStep, instr]
    exact exec_of_wait hn hp

/-- Settles O37, by induction on the reads: each of them leaves SEQ at the wait (41_i2c R141). -/
theorem baselineHang : Obligations.BaselineHang := by
  intro i w n ds rest s hn hp instr hf mode draws fails
  induction ds generalizing s with
  | nil => exact ⟨s, rfl, hp, rfl, rfl, by simp [statusReads]⟩
  | cons d ds ih =>
    obtain ⟨rfl, left⟩ := State.draw_of_pending draws
    have unseen : w.holds s.preadValue = false := fails _ List.mem_cons_self
    have spins : s.seqStep = .next (s.pread .status) := by
      rw [State.seqStep_of_wait hf instr hn hp]
      rcases State.waitStep_cases (n := n) hp with ⟨h, _⟩ | ⟨_, _, e⟩ | ⟨_, h, _⟩ | ⟨_, h, _⟩
      · rw [unseen] at h; cases h
      · rw [e]
      · rw [mode] at h; cases h
      · rw [mode] at h; cases h
    obtain ⟨t, run, phase, res, mem, hist⟩ := ih (s.pread .status) (by simpa using hp) (by simpa using instr)
      (by simpa using hf) (by simpa using mode) left fun d hd => fails d (List.mem_cons_of_mem _ hd)
    refine ⟨t, (State.seqRun_succ spins).trans run, phase, by simpa using res, by simpa using mem, ?_⟩
    rw [hist, State.pread_hist]
    simp [statusReads, State.preadValue]

/-! Turns in a row. -/

theorem State.seqRun_add (h : s.seqRun n = .next u) (m : Nat) : s.seqRun (n + m) = u.seqRun m := by
  induction n generalizing s with
  | zero => cases h; rw [Nat.zero_add]
  | succ n ih =>
    rw [Nat.succ_add]
    simp only [State.seqRun] at h ⊢
    cases e : s.seqStep with
    | next t => simp only [e] at h ⊢; exact ih h
    | fault f => simp [e] at h
    | refused r => simp [e] at h

/-- `n` turns of SEQ take `s` to `t` and append `es`: all else follows from these, or is as it was (41_i2c R145 to R150). -/
structure I2cTurns (n : Nat) (es : List Event) (s t : State) : Prop where
  run : s.seqRun n = .next t
  hist : t.hist = s.hist ++ es
  mem : t.mem = replayWrites s.mem es
  frame : s.I2cFrame t

theorem I2cTurns.trans (h : I2cTurns n es s u) (h' : I2cTurns m fs u t) : I2cTurns (n + m) (es ++ fs) s t where
  run := (State.seqRun_add h.run m).trans h'.run
  hist := by rw [h'.hist, h.hist, List.append_assoc]
  mem := by rw [h'.mem, h.mem, replayWrites_append]
  frame := h.frame.trans h'.frame

/-- SEQ is in command `i` at phase `p` with `IDX = j`, free to step, with the draws `ds` pending; at a poll phase it has not
polled yet. -/
structure I2cStands (i : Instr) (c : Config) (p : Phase) (j : BitVec 9) (ds : List Draw) (s : State) : Prop where
  cfg : s.cfg = c
  latched : s.Latched i
  unfaulted : s.faults.clockReinit = false
  phase : s.phase = p
  idx : s.work.idx = j
  draws : s.env.draws = ds
  polls : p.isPoll = true → s.work.polls = 0

theorem I2cStands.next (a : I2cStands i c p j ds s) (frame : s.I2cFrame t) (phase : t.phase = q) (idx : t.work.idx = k)
    (draws : t.env.draws = rest) (polls : q.isPoll = true → t.work.polls = 0) : I2cStands i c q k rest t :=
  ⟨frame.cfg.trans a.cfg, by rw [State.Latched, frame.cmd]; exact a.latched, by rw [frame.faults]; exact a.unfaulted, phase, idx,
    draws, polls⟩

/-- One turn, at a phase after `IDLE`. -/
theorem I2cTurns.of_exec (hi : i.isI2c = true) (l : s.Latched i) (hf : s.faults.clockReinit = false) (busy : s.phase ≠ .idle)
    (e : exec i s = .next t) (hist : t.hist = s.hist ++ es) : I2cTurns 1 es s t :=
  ⟨State.seqRun_succ ((l.seqStep_eq hf busy).trans e), hist, exec_mem e hist, exec_i2cFrame hi e⟩

theorem Wait.passes_cons : w.passes (v :: vs) ↔ (vs = [] ∧ w.holds v = true) ∨ (w.holds v = false ∧ w.passes vs) := by
  constructor
  · rintro ⟨_ | ⟨u, us⟩, x, h, fails, holds⟩
    · obtain ⟨rfl, rfl⟩ := List.cons.inj h
      exact .inl ⟨rfl, holds⟩
    · obtain ⟨rfl, rfl⟩ := List.cons.inj h
      exact .inr ⟨fails _ List.mem_cons_self, us, x, rfl, fun u hu => fails u (List.mem_cons_of_mem _ hu), holds⟩
  · rintro (⟨rfl, holds⟩ | ⟨hv, us, x, rfl, fails, holds⟩)
    · exact ⟨[], v, rfl, by simp, holds⟩
    · exact ⟨v :: us, x, rfl, by simpa using ⟨hv, fails⟩, holds⟩

/-- SEQ's poll of a wait's flag left it at the wait, with at most one poll more counted (41_i2c R140). -/
structure State.Polls (w : Wait) (s u : State) : Prop where
  phase : u.phase = w.phase
  idx : u.work.idx = s.work.idx := by simp
  env : u.env = s.dropDraw.env := by rfl
  hist : u.hist = s.hist ++ statusReads [s.draw.word] := by rfl
  polls : u.work.polls ≤ s.work.polls + 1 := by simp

/-- A poll that does not find the flag and is not the wait's last. -/
theorem State.waitStep_stays (hp : s.phase = w.phase) (hv : w.holds s.preadValue = false)
    (left : s.cfg.mode = .bounded → s.work.polls + 1 < s.cfg.pollLimit) : s.Polls w (s.waitStep w q) := by
  rcases State.waitStep_cases (n := q) hp with ⟨h, _⟩ | ⟨_, _, e⟩ | ⟨_, mode, last, _⟩ | ⟨_, _, _, e⟩
  · rw [hv] at h; cases h
  · rw [e]; exact { phase := by simpa using hp }
  · exact absurd last (left mode).ne
  · rw [e]; exact { phase := by simpa using hp }

theorem I2cTurns.of_wait {ks : List Draw} (hn : i.waitNext w = some q) (l : s.Latched i) (hf : s.faults.clockReinit = false)
    (hp : s.phase = w.phase) (draws : s.env.draws = ks ++ rest) (passes : w.passes (ks.map Draw.word))
    (within : s.cfg.mode = .bounded → s.work.polls + ks.length ≤ s.cfg.pollLimit) :
    ∃ t, I2cTurns ks.length (statusReads (ks.map Draw.word)) s t ∧ t.phase = q ∧ t.work.idx = s.work.idx ∧
      t.env.draws = rest := by
  have hi := (waitNext_spec hn).1
  induction ks generalizing s with
  | nil => obtain ⟨us, v, h, _⟩ := passes; simp at h
  | cons d ks ih =>
    obtain ⟨rfl, left⟩ := State.draw_of_pending draws
    have busy : s.phase ≠ .idle := hp ▸ w.phase_ne_idle
    rcases Wait.passes_cons.mp passes with ⟨last, hv⟩ | ⟨hv, more⟩
    · obtain rfl : ks = [] := List.map_eq_nil_iff.mp last
      have ends : exec i s = .next ((s.pread .status).goto q) := by
        rw [exec_of_wait hn hp, State.waitStep, if_pos (show w.holds s.preadValue = true from hv)]
      refine ⟨_, .of_exec hi l hf busy ends (by simp [statusReads, State.preadValue]), by simp, ?_, by simpa using left⟩
      rw [State.goto_of_not_poll (waitNext_spec hn).2.2.1]; simp
    · have nonempty : ks ≠ [] := by rintro rfl; obtain ⟨us, v, h, _⟩ := more; simp at h
      have pos := List.length_pos_iff.mpr nonempty
      have here : s.Polls w (s.waitStep w q) := State.waitStep_stays hp hv fun mode => by
        have := within mode; rw [List.length_cons] at this; omega
      have turn := I2cTurns.of_exec hi l hf busy (exec_of_wait hn hp) here.hist
      obtain ⟨t, turns, phase, idx, rest⟩ := ih (by rw [State.Latched, turn.frame.cmd]; exact l)
        (by rw [turn.frame.faults]; exact hf) here.phase (by rw [here.env]; exact left) more fun mode => by
          have := within (turn.frame.cfg ▸ mode); have := here.polls
          rw [turn.frame.cfg]; rw [List.length_cons] at *; omega
      refine ⟨t, ?_, phase, idx.trans here.idx, rest⟩
      rw [List.length_cons, Nat.add_comm]
      exact turn.trans turns

/-- A wait on reads that let it pass within its bound. -/
theorem I2cStands.wait {ks : List Draw} (a : I2cStands i c w.phase j (ks ++ rest) s) (hn : i.waitNext w = some q)
    (passes : w.passes (ks.map Draw.word)) (within : c.mode = .bounded → ks.length ≤ c.pollLimit) :
    ∃ t, I2cTurns ks.length (statusReads (ks.map Draw.word)) s t ∧ I2cStands i c q j rest t := by
  obtain ⟨rfl, latched, unfaulted, phase, rfl, draws, polls⟩ := a
  obtain ⟨t, turns, phase', idx', draws'⟩ := I2cTurns.of_wait hn latched unfaulted phase draws passes fun mode => by
    rw [polls w.phase_isPoll, Nat.zero_add]; exact within mode
  refine ⟨t, turns, I2cStands.next ⟨rfl, latched, unfaulted, phase, rfl, draws, polls⟩ turns.frame phase' idx' draws' fun h => ?_⟩
  rw [(waitNext_spec hn).2.2.1] at h; cases h

theorem i2cAccess_of_idle (hp : s.phase = .idle) : i2cAccess i s = none := by cases i <;> simp [i2cAccess, hp]

/-- A turn with an access whose byte of memory, if any, is admitted. -/
theorem I2cStands.access (hi : i.isI2c = true) (a : I2cStands i c p j ds s) (h : i2cAccess i s = some y)
    (admitted : ∀ x, y.Touches x → admits c x = true)
    (left : (if y.event = .pRd .rxdr s.preadValue then s.dropDraw.env else s.env).draws = rest) :
    ∃ t, I2cTurns 1 [y.event] s t ∧ I2cStands i c y.next y.idx rest t ∧ t.work.byte = y.byte := by
  have busy : s.phase ≠ .idle := fun idle => by rw [i2cAccess_of_idle idle] at h; cases h
  rcases exec_of_access h with ⟨x, touches, refused, _⟩ | ⟨t, e, acc⟩
  · rw [a.cfg, admitted x touches] at refused; cases refused
  · exact ⟨t, .of_exec hi a.latched a.unfaulted busy e acc.hist,
      a.next acc.frame acc.phase acc.idx (by rw [acc.env]; exact left) acc.polls, acc.byte⟩

/-- The launch of a command: no access yet (30_encoding R104). -/
theorem State.Starts.stands (hi : i.isI2c = true) (starts : s.Starts i) (hf : s.faults.clockReinit = false) :
    ∃ t, I2cTurns 1 [] s t ∧ I2cStands i s.cfg Wait.idle.phase s.work.idx s.env.draws t := by
  obtain ⟨hp, latched⟩ := starts
  exact ⟨_, .of_exec hi latched hf (by rw [hp]; nofun) (exec_of_decode_i2c hi hp) (List.append_nil _).symm,
    rfl, latched, hf, rfl, rfl, rfl, fun _ => rfl⟩

/-- `n` turns of SEQ take `s` to the end of its command with OK, with the draws `rest` left (41_i2c R145 to R150). -/
structure I2cCompletes (n : Nat) (es : List Event) (rest : List Draw) (s t : State) : Prop where
  turns : I2cTurns n (es ++ [.pWr .clear 0x00000010, .complete 0]) s t
  phase : t.phase = .idle
  res : t.res = { s.res with status := 0, statusWritten := true }
  draws : t.env.draws = rest

/-- The last turn. -/
theorem I2cStands.completes (hi : i.isI2c = true) (before : I2cTurns n es s u) (a : I2cStands i c .i2StopfClear j rest u) :
    ∃ t, I2cCompletes (n + 1) es rest s t := by
  have last : I2cTurns 1 [.pWr .clear 0x00000010, .complete 0] u u.stopfClear :=
    .of_exec hi a.latched a.unfaulted (by rw [a.phase]; nofun) (exec_of_stopfClear hi a.phase) (by rw [State.stopfClear_eq])
  have turns := before.trans last
  refine ⟨_, turns, by rw [State.stopfClear_eq], ?_, by rw [State.stopfClear_eq]; exact a.draws⟩
  rw [turns.frame.res, State.stopfClear_eq]

end

/-! `I2C_WRITE_BYTES` (41_i2c R147). -/

section
variable {c : Config} {s t : State} {rest : List Draw} {j : BitVec 9} {addr : Addr7} {count : Byte} {buf : Word}

@[simp] theorem replayWrites_statusReads (m : Memory) (vs : List Word) : replayWrites m (statusReads vs) = m :=
  replayWrites_of_not_mWr fun a v h => by simp [statusReads] at h

@[simp] theorem replayWrites_txLoopEvents (m m' : Memory) (a : Word) (vs : List (List Word)) :
    replayWrites m' (txLoopEvents m a vs) = m' := by
  induction vs generalizing a with
  | nil => rfl
  | cons v vs ih => rw [txLoopEvents, replayWrites_append, replayWrites_append, replayWrites_statusReads]; exact ih _

theorem bufferAddress_succ (h : j.toNat < count.toNat) : bufferAddress buf (j + 1) = bufferAddress buf j + 1 := by
  rw [bufferAddress_eq, bufferAddress_eq, toNat_idx_succ h, BitVec.ofNat_add, BitVec.add_assoc]; rfl

@[simp] theorem bufferAddress_zero (buf : Word) : bufferAddress buf 0 = buf := BitVec.add_zero buf

/-- Where a loop over `count` bytes stands before byte `x`: at its poll, or after it (41_i2c R147, R150). -/
def loopPhase (poll after : Phase) (count : Byte) (x : BitVec 9) : Phase := if x.toNat < count.toNat then poll else after

/-- The loop begins at byte 0, or is skipped. -/
theorem loopPhase_zero (poll after : Phase) (count : Byte) :
    (if count = 0 then after else poll) = loopPhase poll after count 0 := by
  by_cases h : count = 0
  · subst h; rfl
  · rw [if_neg h, loopPhase, if_pos (show (0 : BitVec 9).toNat < count.toNat from zero_lt_count h)]

/-- The turns of one byte (41_i2c R147). -/
theorem I2cStands.transmit {k : List Draw} (a : I2cStands (.i2cWriteBytes addr count buf) c .i2TxPoll j (k ++ rest) s)
    (passes : Wait.passes .tx (k.map Draw.word)) (within : c.mode = .bounded → k.length ≤ c.pollLimit)
    (admitted : admits c (bufferAddress buf j) = true) :
    ∃ t, I2cTurns (k.length + 1 + 1) (statusReads (k.map Draw.word) ++ [.mRd (bufferAddress buf j) (s.memByte (bufferAddress buf j))] ++
        [.pWr .txdr (txdrWord (s.memByte (bufferAddress buf j)))]) s t ∧
      I2cStands (.i2cWriteBytes addr count buf) c (loopPhase .i2TxPoll .i2TcPoll count (j + 1)) (j + 1) rest t := by
  obtain ⟨s1, polls, at1⟩ := a.wait (w := .tx) rfl passes within
  have mem : s1.memByte (bufferAddress buf j) = s.memByte (bufferAddress buf j) := by
    simp [State.memByte, polls.mem]
  obtain ⟨s2, fetch, at2, byte⟩ := at1.access rfl
    (y := ⟨.mRd (bufferAddress buf j) (s.memByte (bufferAddress buf j)), .i2TxWrite, j, s.memByte (bufferAddress buf j)⟩)
    (by simp only [i2cAccess, at1.phase, at1.idx, mem]) (by rintro x ⟨v, h | h⟩ <;> cases h; exact admitted) at1.draws
  obtain ⟨s3, write, at3, _⟩ := at2.access rfl
    (y := ⟨.pWr .txdr (txdrWord (s.memByte (bufferAddress buf j))), loopPhase .i2TxPoll .i2TcPoll count (j + 1), j + 1,
      s.memByte (bufferAddress buf j)⟩)
    (by simp only [i2cAccess, at2.phase, at2.idx, byte, loopPhase]) nofun at2.draws
  exact ⟨s3, (polls.trans fetch).trans write, at3⟩

/-- The transmit loop from byte `IDX` on. -/
theorem I2cStands.transmitLoop {ks : List (List Draw)}
    (a : I2cStands (.i2cWriteBytes addr count buf) c (loopPhase .i2TxPoll .i2TcPoll count j) j (ks.flatten ++ rest) s)
    (len : j.toNat + ks.length = count.toNat) (passes : ∀ k ∈ ks, Wait.passes .tx (k.map Draw.word))
    (within : c.mode = .bounded → ∀ k ∈ ks, k.length ≤ c.pollLimit)
    (admitted : ∀ x < count.toNat, admits c (buf + BitVec.ofNat 32 x) = true) :
    ∃ j' t, I2cTurns (ks.flatten.length + 2 * ks.length)
        (txLoopEvents s.mem (bufferAddress buf j) (ks.map fun k => k.map Draw.word)) s t ∧
      I2cStands (.i2cWriteBytes addr count buf) c .i2TcPoll j' rest t := by
  induction ks generalizing j s with
  | nil =>
    rw [loopPhase, if_neg (show ¬ j.toNat < count.toNat from len.ge.not_gt)] at a
    exact ⟨j, s, ⟨rfl, (List.append_nil _).symm, rfl, .refl s⟩, a⟩
  | cons k ks ih =>
    have lt : j.toNat < count.toNat := by rw [List.length_cons] at len; omega
    rw [loopPhase, if_pos lt, List.flatten_cons, List.append_assoc] at a
    obtain ⟨u, byte, at'⟩ := a.transmit (passes k List.mem_cons_self) (fun mode => within mode k List.mem_cons_self)
      (by rw [bufferAddress_eq]; exact admitted _ lt)
    obtain ⟨j', t, more, done⟩ := ih at' (by rw [toNat_idx_succ lt]; rw [List.length_cons] at len; omega)
      (fun k hk => passes k (List.mem_cons_of_mem _ hk)) fun mode k hk => within mode k (List.mem_cons_of_mem _ hk)
    have mem : u.mem = s.mem := by rw [byte.mem, replayWrites_append, replayWrites_append, replayWrites_statusReads]; rfl
    rw [bufferAddress_succ lt, mem] at more
    have turns := byte.trans more
    rw [List.append_assoc (statusReads _)] at turns
    refine ⟨j', t, ?_, done⟩
    convert turns using 1
    · simp only [List.flatten_cons, List.length_append, List.length_cons]; omega
    · rfl

/-- Settles O38: the launch, the waits and accesses in order, and the transmit loop between them. -/
theorem writeBytesCompletes : Obligations.WriteBytesCompletes := by
  intro addr count buf s k1 k3 k4 rest ks starts hf len draws idle tx tc stopf within admitted
  have hi : (Instr.i2cWriteBytes addr count buf).isI2c = true := rfl
  obtain ⟨s0, launch, at0⟩ := starts.stands hi hf
  rw [draws, List.append_assoc, List.append_assoc, List.append_assoc] at at0
  obtain ⟨s1, polls, at1⟩ := at0.wait rfl idle fun mode => within mode k1 (by simp)
  obtain ⟨s2, start, at2, _⟩ := at1.access hi
    (y := ⟨.pWr .ctrl (ctrlWord addr count false false), loopPhase .i2TxPoll .i2TcPoll count 0, 0, s1.work.byte⟩)
    (by simp only [i2cAccess, at1.phase, loopPhase_zero]) nofun at1.draws
  obtain ⟨_, s3, loop, at3⟩ := I2cStands.transmitLoop at2 ((Nat.zero_add _).trans len) tx
    (fun mode k hk => within mode k (by simp [hk])) admitted
  obtain ⟨s4, sent, at4⟩ := at3.wait (w := .tc) rfl tc fun mode => within mode k3 (by simp)
  obtain ⟨s5, stop, at5, _⟩ := at4.access hi (y := ⟨.pStop, .i2StopfPoll, s4.work.idx, s4.work.byte⟩)
    (by simp only [i2cAccess, at4.phase]) nofun at4.draws
  obtain ⟨s6, ended, at6⟩ := at5.wait (w := .stopf) rfl stopf fun mode => within mode k4 (by simp)
  obtain ⟨t, turns, phase, res, left⟩ :=
    at6.completes hi ((((((launch.trans polls).trans start).trans loop).trans sent).trans stop).trans ended)
  have mem : s2.mem = s.mem := by rw [start.mem, polls.mem, launch.mem, replayWrites_statusReads]; rfl
  have adds : 1 + k1.length + 1 + (ks.flatten.length + 2 * ks.length) + k3.length + 1 + k4.length + 1 =
      k1.length + ks.flatten.length + k3.length + k4.length + 2 * count.toNat + 4 := by omega
  refine ⟨t, adds ▸ turns.run, phase, res, ?_, turns.frame.clk, turns.frame.mst, turns.frame.trig, turns.frame.faults, left, ?_⟩
  · rw [turns.mem]; simp only [replayWrites_append, replayWrites_statusReads, replayWrites_txLoopEvents]; rfl
  · rw [turns.hist, mem, bufferAddress_zero]; simp

end

/-! `I2C_READ_BYTES` (41_i2c R150). -/

section
variable {c : Config} {s t : State} {rest : List Draw} {j : BitVec 9} {addr : Addr7} {reg count : Byte} {buf : Word}

/-- The turns of one byte (41_i2c R150). -/
theorem I2cStands.receive {p : List Draw × Draw}
    (a : I2cStands (.i2cReadBytes addr reg count buf) c .i2RxPoll j (p.1 ++ [p.2] ++ rest) s)
    (passes : Wait.passes .rx (p.1.map Draw.word)) (within : c.mode = .bounded → p.1.length ≤ c.pollLimit)
    (admitted : admits c (bufferAddress buf j) = true) :
    ∃ t, I2cTurns (p.1.length + 1 + 1) (statusReads (p.1.map Draw.word) ++ [.pRd .rxdr p.2.word] ++
        [.mWr (bufferAddress buf j) (rxdrByte p.2.word)]) s t ∧
      I2cStands (.i2cReadBytes addr reg count buf) c (loopPhase .i2RxPoll .i2StopfPoll count (j + 1)) (j + 1) rest t := by
  rw [List.append_assoc] at a
  obtain ⟨s1, polls, at1⟩ := a.wait (w := .rx) rfl passes within
  obtain ⟨next, left⟩ := State.draw_of_pending at1.draws
  have value : s1.preadValue = p.2.word := by rw [State.preadValue, next]
  obtain ⟨s2, read, at2, byte⟩ := at1.access rfl (y := ⟨.pRd .rxdr p.2.word, .i2RxStore, j, rxdrByte p.2.word⟩)
    (by simp only [i2cAccess, at1.phase, at1.idx, value]) nofun (rest := rest) (by rw [value, if_pos rfl]; exact left)
  obtain ⟨s3, store, at3, _⟩ := at2.access rfl
    (y := ⟨.mWr (bufferAddress buf j) (rxdrByte p.2.word), loopPhase .i2RxPoll .i2StopfPoll count (j + 1), j + 1,
      rxdrByte p.2.word⟩)
    (by simp only [i2cAccess, at2.phase, at2.idx, byte, loopPhase]) (by rintro x ⟨v, h | h⟩ <;> cases h; exact admitted) at2.draws
  exact ⟨s3, (polls.trans read).trans store, at3⟩

/-- The receive loop from byte `IDX` on. -/
theorem I2cStands.receiveLoop {ks : List (List Draw × Draw)}
    (a : I2cStands (.i2cReadBytes addr reg count buf) c (loopPhase .i2RxPoll .i2StopfPoll count j) j
      ((ks.map fun p => p.1 ++ [p.2]).flatten ++ rest) s)
    (len : j.toNat + ks.length = count.toNat) (passes : ∀ p ∈ ks, Wait.passes .rx (p.1.map Draw.word))
    (within : c.mode = .bounded → ∀ p ∈ ks, p.1.length ≤ c.pollLimit)
    (admitted : ∀ x < count.toNat, admits c (buf + BitVec.ofNat 32 x) = true) :
    ∃ j' t, I2cTurns ((ks.map fun p => p.1 ++ [p.2]).flatten.length + ks.length)
        (rxLoopEvents (bufferAddress buf j) (ks.map fun p => (p.1.map Draw.word, p.2.word))) s t ∧
      I2cStands (.i2cReadBytes addr reg count buf) c .i2StopfPoll j' rest t := by
  induction ks generalizing j s with
  | nil =>
    rw [loopPhase, if_neg (show ¬ j.toNat < count.toNat from len.ge.not_gt)] at a
    exact ⟨j, s, ⟨rfl, (List.append_nil _).symm, rfl, .refl s⟩, a⟩
  | cons p ks ih =>
    have lt : j.toNat < count.toNat := by rw [List.length_cons] at len; omega
    rw [loopPhase, if_pos lt, List.map_cons, List.flatten_cons, List.append_assoc] at a
    obtain ⟨u, byte, at'⟩ := a.receive (passes p List.mem_cons_self) (fun mode => within mode p List.mem_cons_self)
      (by rw [bufferAddress_eq]; exact admitted _ lt)
    obtain ⟨j', t, more, done⟩ := ih at' (by rw [toNat_idx_succ lt]; rw [List.length_cons] at len; omega)
      (fun p hp => passes p (List.mem_cons_of_mem _ hp)) fun mode p hp => within mode p (List.mem_cons_of_mem _ hp)
    rw [bufferAddress_succ lt] at more
    have turns := byte.trans more
    rw [List.append_assoc (statusReads _)] at turns
    refine ⟨j', t, ?_, done⟩
    convert turns using 1
    · simp only [List.map_cons, List.flatten_cons, List.length_append, List.length_cons, List.length_nil]; omega
    · rfl

/-! What the receive loop leaves in memory (20_memory R61, R68). -/

theorem replayWrites_rxLoopEvents_cons (m : Memory) (a : Word) (p : List Word × Word) (vs : List (List Word × Word)) :
    replayWrites m (rxLoopEvents a (p :: vs)) =
      replayWrites (Memory.write m a.toNat (p.2.setWidth 8)) (rxLoopEvents (a + 1) vs) := by
  rw [rxLoopEvents, replayWrites_append, replayWrites_append, replayWrites_statusReads]; rfl

theorem read_rxLoopEvents_of_outside {x : Nat} {vs : List (List Word × Word)} {a : Word} (m : Memory)
    (outside : ∀ j < vs.length, x ≠ (a + BitVec.ofNat 32 j).toNat) :
    Memory.read (replayWrites m (rxLoopEvents a vs)) x = Memory.read m x := by
  induction vs generalizing a m with
  | nil => rfl
  | cons p vs ih =>
    have elsewhere : x ≠ a.toNat := by simpa using outside 0 (Nat.succ_pos _)
    rw [replayWrites_rxLoopEvents_cons, ih, Memory.read_write_ne _ _ elsewhere]
    intro j hj
    rw [add_one_add_ofNat]
    exact outside (j + 1) (Nat.succ_lt_succ hj)

theorem read_rxLoopEvents_of_getElem? {vs : List (List Word × Word)} {a : Word} {m : Memory} {j : Nat} {p : List Word × Word}
    (wf : Memory.wf m = true) (fits : vs.length ≤ 2 ^ 32) (h : vs[j]? = some p) :
    Memory.read (replayWrites m (rxLoopEvents a vs)) (a + BitVec.ofNat 32 j).toNat = p.2.setWidth 8 := by
  induction vs generalizing a m j with
  | nil => cases h
  | cons q vs ih =>
    rw [List.length_cons] at fits
    rw [replayWrites_rxLoopEvents_cons]
    cases j with
    | zero =>
      obtain rfl : q = p := Option.some.inj h
      rw [read_rxLoopEvents_of_outside, BitVec.add_zero, Memory.read_write wf, if_pos rfl]
      intro k hk same
      rw [add_one_add_ofNat] at same
      bv_omega
    | succ j =>
      rw [← add_one_add_ofNat]
      exact ih (Memory.wf_write wf a _) (by omega) h

/-- Settles O39: the launch, the register select, the restart, the receive loop and the end in order; memory is what the loop's stores
make of it. -/
theorem readBytesCompletes : Obligations.ReadBytesCompletes := by
  intro addr reg count buf s k1 k2 k3 k4 rest ks starts hf wf len draws idle tx tc rx stopf within admitted
  have hi : (Instr.i2cReadBytes addr reg count buf).isI2c = true := rfl
  obtain ⟨s0, launch, at0⟩ := starts.stands hi hf
  rw [draws, List.append_assoc, List.append_assoc, List.append_assoc, List.append_assoc] at at0
  obtain ⟨s1, polls, at1⟩ := at0.wait rfl idle fun mode => within mode k1 (by simp)
  obtain ⟨s2, start, at2, _⟩ := at1.access hi (y := ⟨.pWr .ctrl (ctrlWord addr 1 false false), .i2TxPoll, s1.work.idx, s1.work.byte⟩)
    (by simp only [i2cAccess, at1.phase]) nofun at1.draws
  obtain ⟨s3, ready, at3⟩ := at2.wait (w := .tx) rfl tx fun mode => within mode k2 (by simp)
  obtain ⟨s4, select, at4, _⟩ := at3.access hi (y := ⟨.pWr .txdr (txdrWord reg), .i2TcPoll, s3.work.idx, s3.work.byte⟩)
    (by simp only [i2cAccess, at3.phase]) nofun at3.draws
  obtain ⟨s5, sent, at5⟩ := at4.wait (w := .tc) rfl tc fun mode => within mode k3 (by simp)
  obtain ⟨s6, restart, at6, _⟩ := at5.access hi
    (y := ⟨.pWr .ctrl (ctrlWord addr count true true), loopPhase .i2RxPoll .i2StopfPoll count 0, 0, s5.work.byte⟩)
    (by simp only [i2cAccess, at5.phase, loopPhase_zero]) nofun at5.draws
  obtain ⟨_, s7, loop, at7⟩ := I2cStands.receiveLoop at6 ((Nat.zero_add _).trans len) rx
    (fun mode p hp => within mode p.1 (by simp [List.mem_map_of_mem hp])) admitted
  obtain ⟨s8, ended, at8⟩ := at7.wait (w := .stopf) rfl stopf fun mode => within mode k4 (by simp)
  obtain ⟨t, turns, phase, res, left⟩ := at8.completes hi
    ((((((((launch.trans polls).trans start).trans ready).trans select).trans sent).trans restart).trans loop).trans ended)
  have mem : t.mem = replayWrites s.mem (rxLoopEvents buf (ks.map fun p => (p.1.map Draw.word, p.2.word))) := by
    rw [turns.mem, bufferAddress_zero]; simp only [replayWrites_append, replayWrites_statusReads]; rfl
  have adds : 1 + k1.length + 1 + k2.length + 1 + k3.length + 1 + ((ks.map fun p => p.1 ++ [p.2]).flatten.length + ks.length) +
      k4.length + 1 = k1.length + k2.length + k3.length + (ks.map fun p => p.1 ++ [p.2]).flatten.length + k4.length +
      count.toNat + 5 := by omega
  refine ⟨t, adds ▸ turns.run, phase, res, turns.frame.clk, turns.frame.mst, turns.frame.trig, turns.frame.faults, left,
    fun j p hj => ?_, fun x outside => ?_, ?_⟩
  · rw [mem]
    exact read_rxLoopEvents_of_getElem? (p := (p.1.map Draw.word, p.2.word)) wf (by rw [List.length_map]; omega)
      (by rw [List.getElem?_map, hj]; rfl)
  · rw [mem]
    exact read_rxLoopEvents_of_outside _ (by rwa [List.length_map, len])
  · rw [turns.hist, bufferAddress_zero]; simp [txdrWord]

end
end Sys2Proof.Machine
end

/-! ### `MEASURE`, phase by phase (O41, O45) -/

section
namespace Sys2Proof.Machine

/-! What SEQ does at a phase of `MEASURE` outside its delays (42_ranger R181 to R183). -/

section
variable {s : State} {timeout : Word}

theorem exec_of_rgTrig0 (hp : s.phase = .rgTrig0) : exec (.measure timeout) s = .next (s.trigHold false .rgTrig1) := by
  simp [exec, execMeasure, hp]

theorem exec_of_rgTrig1 (hp : s.phase = .rgTrig1) : exec (.measure timeout) s = .next (s.trigHold true .rgTrig2) := by
  simp [exec, execMeasure, hp]

theorem exec_of_rgTrig2 (hp : s.phase = .rgTrig2) : exec (.measure timeout) s = .next s.trigEnd := by
  simp [exec, execMeasure, hp]

theorem exec_of_rgASample (hp : s.phase = .rgASample) : exec (.measure timeout) s = .next (s.sampleA timeout) := by
  simp [exec, execMeasure, hp]

theorem exec_of_rgBSample (hp : s.phase = .rgBSample) : exec (.measure timeout) s = .next (s.sampleB timeout) := by
  simp [exec, execMeasure, hp]

theorem exec_of_rgSettle (hp : s.phase = .rgSettle) : exec (.measure timeout) s = .next s.rgSettle := by
  simp [exec, execMeasure, hp]

/-- The counter is past the timeout, in numbers. -/
theorem echoExceeds_iff {e : BitVec 33} : echoExceeds e timeout = true ↔ timeout.toNat < e.toNat := by
  have same : (timeout.setWidth 33).toNat = timeout.toNat := by
    rw [BitVec.toNat_setWidth]
    exact Nat.mod_eq_of_lt (by omega)
  simp [echoExceeds, BitVec.lt_def, same]

theorem State.sampleA_of_high (h : s.draw.bit = true) : s.sampleA timeout = { s.dropDraw with
    hist := s.hist ++ [.echoRd true], work.ecnt := 0, phase := .rgBSample } := by
  simp [State.sampleA, State.echoSample, State.echoLevel, h]

theorem State.sampleA_of_low (h : s.draw.bit = false) : s.sampleA timeout =
    if timeout.toNat < (s.work.ecnt + 1).toNat then { s.dropDraw with
      hist := s.hist ++ [.echoRd false], work.ecnt := s.work.ecnt + 1, work.val := false, work.dur := 0, work.ekind := 4,
      work.mrem := s.cfg.settleMs, work.ret := .back .rgSettle, phase := .dmArm }
    else { s.dropDraw with
      hist := s.hist ++ [.echoRd false], work.ecnt := s.work.ecnt + 1, work.drem := 1, work.ret := .back .rgASample,
      phase := .duEntry } := by
  simp [State.sampleA, State.echoSample, State.echoLevel, h, echoExceeds_iff, State.settle, State.enterDelayMs,
    State.enterDelayUs, Status.code]

theorem State.sampleB_of_low (h : s.draw.bit = false) : s.sampleB timeout = { s.dropDraw with
    hist := s.hist ++ [.echoRd false], work.val := true, work.dur := s.work.ecnt.setWidth 32, work.ekind := 0,
    work.mrem := s.cfg.settleMs, work.ret := .back .rgSettle, phase := .dmArm } := by
  simp [State.sampleB, State.echoSample, State.echoLevel, h, State.settle, State.enterDelayMs, Status.code]

theorem State.sampleB_of_high (h : s.draw.bit = true) : s.sampleB timeout =
    if timeout.toNat < (s.work.ecnt + 1).toNat then { s.dropDraw with
      hist := s.hist ++ [.echoRd true], work.ecnt := s.work.ecnt + 1, work.val := false, work.dur := 0, work.ekind := 5,
      work.mrem := s.cfg.settleMs, work.ret := .back .rgSettle, phase := .dmArm }
    else { s.dropDraw with
      hist := s.hist ++ [.echoRd true], work.ecnt := s.work.ecnt + 1, work.drem := 1, work.ret := .back .rgBSample,
      phase := .duEntry } := by
  simp [State.sampleB, State.echoSample, State.echoLevel, h, echoExceeds_iff, State.settle, State.enterDelayMs,
    State.enterDelayUs, Status.code]

theorem State.rgSettle_eq (s : State) : s.rgSettle = { s with
    res.rngValid := s.work.val, res.rngDuration := s.work.dur, res.rngDistance := s.work.dur / 58, res.rngWritten := true,
    res.status := s.work.ekind, res.statusWritten := true, hist := s.hist ++ [.complete s.work.ekind], phase := .idle } := rfl

end

/-! The end of a delay, whatever `RET` is (40_clock R123, R125). -/

section
variable {s : State}

/-- A delay that returns from a phase that does not poll clears `POLLS` exactly when it enters a poll phase (41_i2c R140). -/
theorem State.delayReturn_of_back {p : Phase} (hp : s.phase.isPoll = false) (ret : s.work.ret = .back p) :
    s.delayReturn = { s with phase := p, work.polls := if p.isPoll then 0 else s.work.polls } := by
  have back : s.delayReturn = s.goto p := by simp [State.delayReturn, ret]
  cases poll : p.isPoll with
  | false => simp [back, State.goto_of_not_poll poll]
  | true =>
    have enters : p ≠ s.phase := fun same => by rw [same, hp] at poll; cases poll
    simp [back, State.goto_of_poll poll enters]

theorem State.duEntry_of_zero_back {p : Phase} (hp : s.phase = .duEntry) (h : s.work.drem = 0) (ret : s.work.ret = .back p) :
    s.duEntry = { s with phase := p, work.polls := if p.isPoll then 0 else s.work.polls } :=
  (if_pos h).trans (State.delayReturn_of_back (by rw [hp]; rfl) ret)

theorem State.duClear_of_one_back {p : Phase} (hp : s.phase = .duClear) (h : s.work.drem = 1) (ret : s.work.ret = .back p) :
    s.duClear = { s.uifClear with phase := p, work.drem := 0, work.polls := if p.isPoll then 0 else s.work.polls } := by
  have last : s.work.drem - 1 = 0 := by rw [h]; rfl
  rw [State.duClear, if_pos last, last]
  exact State.delayReturn_of_back (s := { s.uifClear with work.drem := 0 }) (by rw [State.uifClear_phase, hp]; rfl) ret

theorem State.dmArm_of_zero_back {p : Phase} (hp : s.phase = .dmArm) (h : s.work.mrem = 0) (ret : s.work.ret = .back p) :
    s.dmArm = { s with phase := p, work.polls := if p.isPoll then 0 else s.work.polls } :=
  (if_pos h).trans (State.delayReturn_of_back (by rw [hp]; rfl) ret)

end

/-- Settles O41: each arm of the meaning, the samples by level and timeout, the delays by their branches. -/
theorem measureSteps : Obligations.MeasureSteps := by
  intro timeout s
  refine ⟨fun hp => exec_of_decode _ hp, fun hp => exec_of_rgTrig0 hp, fun hp => exec_of_rgTrig1 hp, fun hp => exec_of_rgTrig2 hp,
    fun hp high => ?_, fun hp low => ?_, fun hp low => ?_, fun hp high => ?_, fun hp => exec_of_rgSettle hp,
    fun hp h0 => ?_, fun hp h0 => ?_, fun hp hu => ?_, fun hp hu => ?_, fun hp h1 => ?_, fun hp h1 => ?_,
    fun hp h0 => ?_, fun hp h0 => ?_, fun hp hd => ?_, fun hp hd => ?_⟩
  · rw [exec_of_rgASample hp, State.sampleA_of_high high]
  · rw [exec_of_rgASample hp, State.sampleA_of_low low]
  · rw [exec_of_rgBSample hp, State.sampleB_of_low low]
  · rw [exec_of_rgBSample hp, State.sampleB_of_high high]
  · rw [exec_of_duEntry rfl hp]
    cases ret : s.work.ret with
    | done => rw [State.duEntry_of_zero h0 ret]; rfl
    | back p => rw [State.duEntry_of_zero_back hp h0 ret]
  · rw [exec_of_duEntry rfl hp, State.duEntry_of_ne_zero h0]; rfl
  · rw [exec_of_duWait rfl hp, State.duWait_of_set hu]; rfl
  · rw [exec_of_duWait rfl hp, State.duWait_of_clear hu]
  · rw [exec_of_duClear rfl hp, State.duClear_of_ne_one h1]; rfl
  · rw [exec_of_duClear rfl hp]
    cases ret : s.work.ret with
    | done =>
      rw [State.duClear_of_one h1 ret]
      simp [State.complete, State.uifClear, ret]
    | back p => rw [State.duClear_of_one_back hp h1 ret]; rfl
  · rw [exec_of_dmArm rfl hp]
    cases ret : s.work.ret with
    | done => rw [State.dmArm_of_zero h0 ret]; rfl
    | back p => rw [State.dmArm_of_zero_back hp h0 ret]
  · rw [exec_of_dmArm rfl hp, State.dmArm_of_ne_zero h0]; rfl
  · rw [exec_of_dmWait rfl hp, State.dmWait_of_done hd]; rfl
  · rw [exec_of_dmWait rfl hp, State.dmWait_of_not_done hd]

theorem toNat_distance (d : Word) : (distance d).toNat = d.toNat / 58 := BitVec.toNat_udiv

/-- Settles O45: the quotient of a word below 2^32, and the worked values by computation. -/
theorem distanceRule : Obligations.DistanceRule := by
  refine ⟨toNat_distance, fun d => ?_, by decide, by decide, by decide, by decide, by decide, by decide, by decide⟩
  rw [toNat_distance]
  have := d.isLt
  omega

end Sys2Proof.Machine
end

/-! ### What `MEASURE` leaves unchanged (O53) -/

section
namespace Sys2Proof.Machine

section
variable {s t : State} {timeout n : Word}

/-- What a SEQ step of `MEASURE` leaves, whatever its phase (42_ranger R181, 10_state R25). -/
structure State.MeasureFrame (s t : State) : Prop where
  mem : t.mem = s.mem := by rfl
  per : t.per = s.per := by rfl
  cnt : t.clk.cnt = s.clk.cnt := by rfl
  run : t.clk.run = s.clk.run := by rfl
  faults : t.faults = s.faults := by rfl
  cmd : t.cmd = s.cmd := by rfl
  cfg : t.cfg = s.cfg := by rfl
  hostData : t.hostData = s.hostData := by rfl
  moves : t.env.moves = s.env.moves := by rfl
  value : t.res.value = s.res.value := by rfl
  valueWritten : t.res.valueWritten = s.res.valueWritten := by rfl
  idx : t.work.idx = s.work.idx := by rfl
  err : t.work.err = s.work.err := by rfl
  byte : t.work.byte = s.work.byte := by rfl

/-- The measurement registers are as they were (10_state R26). -/
structure State.SameRange (s t : State) : Prop where
  rngValid : t.res.rngValid = s.res.rngValid := by rfl
  rngDuration : t.res.rngDuration = s.res.rngDuration := by rfl
  rngDistance : t.res.rngDistance = s.res.rngDistance := by rfl
  rngWritten : t.res.rngWritten = s.res.rngWritten := by rfl

theorem State.SameRange.of_res_eq (h : t.res = s.res) : s.SameRange t := ⟨by rw [h], by rw [h], by rw [h], by rw [h]⟩

/-- A step within a delay, as a step of the command that is this delay alone. -/
theorem State.DelayFrame.measureFrame (f : s.DelayFrame t) (idx : t.work.idx = s.work.idx) (err : t.work.err = s.work.err)
    (byte : t.work.byte = s.work.byte) : s.MeasureFrame t ∧ s.SameRange t ∧ t.trig = s.trig :=
  ⟨⟨f.mem, f.per, f.cnt, f.run, f.faults, f.cmd, f.cfg, f.hostData, f.moves, f.value, f.valueWritten, idx, err, byte⟩,
    ⟨f.rngValid, f.rngDuration, f.rngDistance, f.rngWritten⟩, f.trig⟩

theorem execDelayUs_measureFrame (h : execDelayUs n s = .next t) : s.MeasureFrame t ∧ s.SameRange t ∧ t.trig = s.trig := by
  obtain ⟨f, _, work⟩ := execDelayUs_frame h
  exact f.measureFrame (by rw [work]) (by rw [work]) (by rw [work])

theorem execDelayMs_measureFrame (h : execDelayMs n s = .next t) : s.MeasureFrame t ∧ s.SameRange t ∧ t.trig = s.trig := by
  obtain ⟨f, _, work⟩ := execDelayMs_frame h
  exact f.measureFrame (by rw [work]) (by rw [work]) (by rw [work])

/-- A sample takes a draw and records it; then only `PHASE` and working registers change, none of them of the I2C family. -/
structure State.Samples (s t : State) : Prop where
  moved : t = { s.echoSample with work := t.work, phase := t.phase } := by rfl
  idx : t.work.idx = s.echoSample.work.idx := by rfl
  err : t.work.err = s.echoSample.work.err := by rfl
  byte : t.work.byte = s.echoSample.work.byte := by rfl

theorem State.sampleA_samples (timeout : Word) (s : State) : s.Samples (s.sampleA timeout) := by
  unfold State.sampleA
  split
  · exact {}
  · split <;> exact {}

theorem State.sampleB_samples (timeout : Word) (s : State) : s.Samples (s.sampleB timeout) := by
  unfold State.sampleB
  split
  · exact {}
  · split <;> exact {}

theorem State.Samples.frame (x : s.Samples t) : s.MeasureFrame t ∧ s.SameRange t ∧ t.trig = s.trig := by
  obtain ⟨moved, idx, err, byte⟩ := x
  rw [State.echoSample_work] at idx err byte
  rw [moved]
  refine ⟨?_, .of_res_eq s.echoSample_res, s.echoSample_trig⟩
  constructor <;> simp [State.dropDraw_moves, idx, err, byte]

/-- What one SEQ step of `MEASURE` leaves, phase by phase: its delays are those of `DELAY_US` and `DELAY_MS`, and only the phases of
the trigger pulse drive the pin. -/
theorem execMeasure_frame (h : execMeasure timeout s = .next t) : s.MeasureFrame t ∧ (s.phase ≠ .rgSettle → s.SameRange t) ∧
    (s.phase ≠ .rgTrig0 → s.phase ≠ .rgTrig1 → s.phase ≠ .rgTrig2 → t.trig = s.trig) := by
  have whole : ∀ {u : State}, s.MeasureFrame u ∧ s.SameRange u ∧ u.trig = s.trig → s.MeasureFrame u ∧
      (s.phase ≠ .rgSettle → s.SameRange u) ∧
      (s.phase ≠ .rgTrig0 → s.phase ≠ .rgTrig1 → s.phase ≠ .rgTrig2 → u.trig = s.trig) :=
    fun ⟨f, range, trig⟩ => ⟨f, fun _ => range, fun _ _ _ => trig⟩
  unfold execMeasure at h
  split at h <;> rename_i hp <;> cases h
  · exact whole ⟨{}, {}, rfl⟩
  · exact ⟨{}, fun _ => {}, fun h => absurd hp h⟩
  · exact ⟨{}, fun _ => {}, fun _ h => absurd hp h⟩
  · exact ⟨{}, fun _ => {}, fun _ _ h => absurd hp h⟩
  · exact whole (s.sampleA_samples timeout).frame
  · exact whole (s.sampleB_samples timeout).frame
  · exact ⟨{}, fun h => absurd hp h, fun _ _ _ => rfl⟩
  · exact whole (execDelayUs_measureFrame (n := 0) (by simp [execDelayUs, hp]))
  · exact whole (execDelayUs_measureFrame (n := 0) (by simp [execDelayUs, hp]))
  · exact whole (execDelayUs_measureFrame (n := 0) (by simp [execDelayUs, hp]))
  · exact whole (execDelayMs_measureFrame (n := 0) (by simp [execDelayMs, hp]))
  · exact whole (execDelayMs_measureFrame (n := 0) (by simp [execDelayMs, hp]))

/-- Settles O53, from the frame of a step. -/
theorem frameMeasure : Obligations.FrameMeasure := by
  intro timeout s t e
  obtain ⟨f, range, trig⟩ := execMeasure_frame e
  exact ⟨fun _ => by rw [f.mem], f.per, f.cnt, f.run, f.faults, f.cmd, f.cfg, f.hostData, f.moves, f.value, f.valueWritten,
    f.idx, f.err, f.byte, fun h => ⟨(range h).rngValid, (range h).rngDuration, (range h).rngDistance, (range h).rngWritten⟩,
    trig⟩

end
end Sys2Proof.Machine
end

/-! ### The trace of `MEASURE` (O42 to O44) -/

section
namespace Sys2Proof.Machine

/-! The way to a phase through a delay: what SEQ still records before its return (40_clock R123, R125). -/

/-- SEQ's events of `n` waits of `DELAY_US` (40_clock R123). -/
def waitsUs (n : Nat) : List Event := (List.replicate n [Event.uifRd, .uifClr]).flatten

/-- SEQ is in a delay that returns to `q`, and records `fs` before it does. -/
inductive InDelay (p : Phase) (w : Work) (q : Phase) (fs : List Event) : Prop
  | duEntry (hp : p = .duEntry) (ret : w.ret = .back q) (left : fs = delayUsEvents w.drem.toNat)
  | duWait (hp : p = .duWait) (ret : w.ret = .back q) (drem : w.drem ≠ 0) (left : fs = waitsUs w.drem.toNat)
  | duClear (hp : p = .duClear) (ret : w.ret = .back q) (drem : w.drem ≠ 0) (left : .uifRd :: fs = waitsUs w.drem.toNat)
  | dmArm (hp : p = .dmArm) (ret : w.ret = .back q) (left : fs = delayMsEvents w.mrem.toNat)
  | dmWait (hp : p = .dmWait) (ret : w.ret = .back q) (mrem : w.mrem ≠ 0) (left : .msArm :: fs = delayMsEvents w.mrem.toNat)

/-- SEQ is at `q`, or in a delay that returns to it after the events `fs`. -/
inductive ComesTo (p : Phase) (w : Work) (q : Phase) (fs : List Event) : Prop
  | here (hp : p = q) (left : fs = [])
  | delay (d : InDelay p w q fs)

section
variable {s t : State} {timeout : Word} {q : Phase} {fs : List Event} {x : Word}

theorem waitsUs_of_ne_zero (hx : x ≠ 0) : waitsUs x.toNat = [.uifRd, .uifClr] ++ waitsUs (x - 1).toNat := by
  rw [← toNat_sub_one hx]; rfl

theorem delayMsEvents_of_ne_zero (hx : x ≠ 0) : delayMsEvents x.toNat = [.msArm, .msDoneRd] ++ delayMsEvents (x - 1).toNat := by
  rw [← toNat_sub_one hx]; rfl

theorem delayUsEvents_eq_waitsUs (hx : x ≠ 0) : delayUsEvents x.toNat = .uifClr :: waitsUs x.toNat :=
  if_neg fun h => hx (BitVec.eq_of_toNat_eq h)

/-- A step in a delay of `MEASURE`: SEQ records the next of the events that are left, if any, and nothing else but the delay's own
registers changes. -/
structure StepsInDelay (s : State) (q : Phase) (fs : List Event) (t : State) : Prop where
  events : ∃ es gs, t.hist = s.hist ++ es ∧ seqEvents es = es ∧ fs = es ++ gs ∧ ComesTo t.phase t.work q gs
  cfg : t.cfg = s.cfg := by rfl
  res : t.res = s.res := by rfl
  ecnt : t.work.ecnt = s.work.ecnt := by rfl
  outcome : t.work.outcome = s.work.outcome := by rfl

theorem InDelay.step (d : InDelay s.phase s.work q fs) (e : exec (.measure timeout) s = .next t) :
    StepsInDelay s q fs t := by
  cases d with
  | duEntry hp ret left =>
    rw [exec_of_duEntry rfl hp] at e
    cases e
    by_cases h0 : s.work.drem = 0
    · rw [State.duEntry_of_zero_back hp h0 ret]
      exact { events := ⟨[], [], by simp, rfl, by rw [left, h0]; rfl, .here rfl rfl⟩ }
    · rw [State.duEntry_of_ne_zero h0]
      exact { events := ⟨[.uifClr], _, rfl, rfl, left.trans (delayUsEvents_eq_waitsUs h0), .delay (.duWait rfl ret h0 rfl)⟩ }
  | duWait hp ret drem left =>
    rw [exec_of_duWait rfl hp] at e
    cases e
    cases hu : s.clk.uif with
    | false =>
      rw [State.duWait_of_clear hu]
      exact { events := ⟨[], fs, by simp, rfl, rfl, .delay (.duWait hp ret drem left)⟩ }
    | true =>
      rw [State.duWait_of_set hu]
      rw [waitsUs_of_ne_zero drem] at left
      exact { events := ⟨[.uifRd], _, rfl, rfl, left, .delay (.duClear rfl ret drem (waitsUs_of_ne_zero drem).symm)⟩ }
  | duClear hp ret drem left =>
    rw [exec_of_duClear rfl hp] at e
    cases e
    obtain rfl : fs = .uifClr :: waitsUs (s.work.drem - 1).toNat := by
      rw [waitsUs_of_ne_zero drem] at left
      exact (List.cons.inj left).2
    by_cases h1 : s.work.drem = 1
    · rw [State.duClear_of_one_back hp h1 ret]
      exact { events := ⟨[.uifClr], [], rfl, rfl, by rw [h1]; rfl, .here rfl rfl⟩ }
    · rw [State.duClear_of_ne_one h1]
      exact { events := ⟨[.uifClr], _, rfl, rfl, rfl, .delay (.duWait rfl ret (sub_ne_zero.mpr h1) rfl)⟩ }
  | dmArm hp ret left =>
    rw [exec_of_dmArm rfl hp] at e
    cases e
    by_cases h0 : s.work.mrem = 0
    · rw [State.dmArm_of_zero_back hp h0 ret]
      exact { events := ⟨[], [], by simp, rfl, by rw [left, h0]; rfl, .here rfl rfl⟩ }
    · rw [State.dmArm_of_ne_zero h0]
      rw [delayMsEvents_of_ne_zero h0] at left
      exact { events := ⟨[.msArm], _, rfl, rfl, left, .delay (.dmWait rfl ret h0 (delayMsEvents_of_ne_zero h0).symm)⟩ }
  | dmWait hp ret mrem left =>
    rw [exec_of_dmWait rfl hp] at e
    cases e
    cases hd : s.mst.done with
    | false =>
      rw [State.dmWait_of_not_done hd]
      exact { events := ⟨[], fs, by simp, rfl, rfl, .delay (.dmWait hp ret mrem left)⟩ }
    | true =>
      rw [State.dmWait_of_done hd]
      rw [delayMsEvents_of_ne_zero mrem] at left
      exact { events := ⟨[.msDoneRd], _, rfl, rfl, (List.cons.inj left).2, .delay (.dmArm rfl ret rfl)⟩ }

end

/-! READ_ECHO and the points of `MEASURE` (42_ranger R181 to R183). -/

/-- How READ_ECHO may end under the timeout `T`: validity, duration, status, and SEQ's events. -/
inductive EchoOutcome (T : Word) (val : Bool) (dur : Word) (c : Code) (es : List Event) : Prop
  | noRise (hv : val = false) (hd : dur = 0) (hc : c = 4) (events : es = echoLoopEvents false T.toNat ++ [.echoRd false])
  | noFall (a : Nat) (ha : a ≤ T.toNat) (hv : val = false) (hd : dur = 0) (hc : c = 5)
      (events : es = echoLoopEvents false a ++ [.echoRd true] ++ echoLoopEvents true T.toNat ++ [.echoRd true])
  | echo (a : Nat) (ha : a ≤ T.toNat) (hv : val = true) (hd : dur.toNat ≤ T.toNat) (hc : c = 0)
      (events : es = echoLoopEvents false a ++ [.echoRd true] ++ echoLoopEvents true dur.toNat ++ [.echoRd false])

/-- SEQ's events from `DECODE` to the phase `p`, which is none of a delay, with the working registers `w`. -/
inductive MeasurePath (T : Word) (c : Config) (w : Work) (p : Phase) (es : List Event) : Prop
  | low (hp : p = .rgTrig0) (events : es = [])
  | high (hp : p = .rgTrig1) (events : es = [.trigWr false] ++ delayUsEvents 10)
  | lowAgain (hp : p = .rgTrig2) (events : es = [.trigWr false] ++ delayUsEvents 10 ++ [.trigWr true] ++ delayUsEvents 10)
  | rise (hp : p = .rgASample) (ecnt : w.ecnt.toNat ≤ T.toNat)
      (events : es = triggerEvents ++ echoLoopEvents false w.ecnt.toNat)
  | fall (a : Nat) (ha : a ≤ T.toNat) (hp : p = .rgBSample) (ecnt : w.ecnt.toNat ≤ T.toNat)
      (events : es = triggerEvents ++ (echoLoopEvents false a ++ [.echoRd true] ++ echoLoopEvents true w.ecnt.toNat))
  | settled {xs : List Event} (hp : p = .rgSettle) (outcome : EchoOutcome T w.val w.dur w.ekind xs)
      (events : es = triggerEvents ++ xs ++ delayMsEvents c.settleMs.toNat)

/-- The result registers after a `MEASURE` that ends with this outcome (42_ranger R181, 10_state R26). -/
def Results.measured (r : Results) (val : Bool) (dur : Word) (c : Code) : Results :=
  { r with rngValid := val, rngDuration := dur, rngDistance := dur / 58, rngWritten := true, status := c, statusWritten := true }

/-- Where `MEASURE T` is, under the parameters `c`, after SEQ's events `es`: at `DECODE`, on its way to a phase, or at its end, which
alone changes the result registers. -/
inductive MeasurePoint (T : Word) (c : Config) (r₀ : Results) (p : Phase) (w : Work) (r : Results) (es : List Event) : Prop
  | decode (hp : p = .decode) (res : r = r₀) (events : es = [])
  | onWay {q : Phase} {fs : List Event} (way : ComesTo p w q fs) (path : MeasurePath T c w q (es ++ fs)) (res : r = r₀)
  | ended {val : Bool} {dur : Word} {code : Code} {xs : List Event} (hp : p = .idle) (outcome : EchoOutcome T val dur code xs)
      (res : r = r₀.measured val dur code)
      (events : es = triggerEvents ++ xs ++ delayMsEvents c.settleMs.toNat ++ [.complete code])

section
variable {s t : State} {T : Word} {c : Config} {r₀ r : Results} {p q : Phase} {w w' : Work} {es : List Event}

theorem echoLoopEvents_succ (l : Bool) (n : Nat) :
    echoLoopEvents l (n + 1) = echoLoopEvents l n ++ [.echoRd l] ++ delayUsEvents 1 := by
  simp [echoLoopEvents, List.replicate_succ']

theorem MeasurePath.congr (m : MeasurePath T c w p es) (ecnt : w'.ecnt = w.ecnt) (outcome : w'.outcome = w.outcome) :
    MeasurePath T c w' p es := by
  obtain ⟨ekind, val, dur⟩ : w'.ekind = w.ekind ∧ w'.val = w.val ∧ w'.dur = w.dur := by simpa [Work.outcome] using outcome
  cases m with
  | low hp events => exact .low hp events
  | high hp events => exact .high hp events
  | lowAgain hp events => exact .lowAgain hp events
  | rise hp le events => exact .rise hp (by rwa [ecnt]) (by rwa [ecnt])
  | fall a ha hp le events => exact .fall a ha hp (by rwa [ecnt]) (by rwa [ecnt])
  | settled hp o events => exact .settled hp (by rwa [ekind, val, dur]) events

/-- A step of `MEASURE` that records `fs` and leads to the next point. -/
def MeasureStepsOn (T : Word) (c : Config) (r₀ : Results) (s t : State) (es : List Event) : Prop :=
  ∃ fs, t.hist = s.hist ++ fs ∧ t.cfg = s.cfg ∧ MeasurePoint T c r₀ t.phase t.work t.res (es ++ seqEvents fs)

/-- Below the timeout the 33-bit counter does not wrap. -/
theorem toNat_ecnt_succ {e : BitVec 33} (he : e.toNat ≤ T.toNat) : (e + 1).toNat = e.toNat + 1 := by bv_omega

theorem MeasureStepsOn.trig {l : Bool} (res : s.res = r₀)
    (path : MeasurePath T c s.work q (es ++ [.trigWr l] ++ delayUsEvents 10)) :
    MeasureStepsOn T c r₀ s (s.trigHold l q) es :=
  ⟨[.trigWr l], rfl, rfl, .onWay (.delay (.duEntry rfl rfl rfl)) (path.congr rfl rfl) res⟩

theorem MeasureStepsOn.rise (res : s.res = r₀) (cfg : s.cfg = c) (ecnt : s.work.ecnt.toNat ≤ T.toNat) :
    MeasureStepsOn T c r₀ s (s.sampleA T) (triggerEvents ++ echoLoopEvents false s.work.ecnt.toNat) := by
  cases level : s.draw.bit with
  | true =>
    rw [State.sampleA_of_high level]
    refine ⟨[.echoRd true], rfl, by simp, .onWay (.here rfl rfl) (.fall _ ecnt rfl (Nat.zero_le _) ?_) (by simpa using res)⟩
    simp only [List.append_assoc, List.append_nil]; rfl
  | false =>
    rw [State.sampleA_of_low level, toNat_ecnt_succ ecnt]
    refine ⟨[.echoRd false], by split <;> rfl, by split <;> simp, ?_⟩
    split
    · next past =>
      refine .onWay (.delay (.dmArm rfl rfl rfl)) (.settled rfl (.noRise rfl rfl rfl rfl) ?_) (by simpa using res)
      have last : s.work.ecnt.toNat = T.toNat := by omega
      simp only [last, ← cfg, List.append_assoc]; rfl
    · next within =>
      refine .onWay (.delay (.duEntry rfl rfl rfl)) (.rise rfl ?_ ?_) (by simpa using res)
      · rw [toNat_ecnt_succ ecnt]; omega
      · rw [toNat_ecnt_succ ecnt, echoLoopEvents_succ]
        simp only [List.append_assoc]; rfl

theorem MeasureStepsOn.fall {a : Nat} (ha : a ≤ T.toNat) (res : s.res = r₀) (cfg : s.cfg = c)
    (ecnt : s.work.ecnt.toNat ≤ T.toNat) : MeasureStepsOn T c r₀ s (s.sampleB T)
      (triggerEvents ++ (echoLoopEvents false a ++ [.echoRd true] ++ echoLoopEvents true s.work.ecnt.toNat)) := by
  cases level : s.draw.bit with
  | false =>
    have fits : (s.work.ecnt.setWidth 32).toNat = s.work.ecnt.toNat := by
      rw [BitVec.toNat_setWidth]
      exact Nat.mod_eq_of_lt (ecnt.trans_lt T.isLt)
    rw [State.sampleB_of_low level]
    refine ⟨[.echoRd false], rfl, by simp, .onWay (.delay (.dmArm rfl rfl rfl))
      (.settled rfl (.echo a ha rfl (fits.trans_le ecnt) rfl rfl) ?_) (by simpa using res)⟩
    simp only [fits, ← cfg, List.append_assoc]; rfl
  | true =>
    rw [State.sampleB_of_high level, toNat_ecnt_succ ecnt]
    refine ⟨[.echoRd true], by split <;> rfl, by split <;> simp, ?_⟩
    split
    · next past =>
      refine .onWay (.delay (.dmArm rfl rfl rfl)) (.settled rfl (.noFall a ha rfl rfl rfl rfl) ?_) (by simpa using res)
      have last : s.work.ecnt.toNat = T.toNat := by omega
      simp only [last, ← cfg, List.append_assoc]; rfl
    · next within =>
      refine .onWay (.delay (.duEntry rfl rfl rfl)) (.fall a ha rfl ?_ ?_) (by simpa using res)
      · rw [toNat_ecnt_succ ecnt]; omega
      · rw [toNat_ecnt_succ ecnt, echoLoopEvents_succ]
        simp only [List.append_assoc]; rfl

theorem MeasurePath.step (m : MeasurePath T c s.work s.phase es) (res : s.res = r₀) (cfg : s.cfg = c)
    (e : exec (.measure T) s = .next t) : MeasureStepsOn T c r₀ s t es := by
  cases m with
  | low hp events =>
    rw [exec_of_rgTrig0 hp] at e
    cases e
    exact .trig res (.high rfl (by rw [events]; rfl))
  | high hp events =>
    rw [exec_of_rgTrig1 hp] at e
    cases e
    exact .trig res (.lowAgain rfl (by rw [events]))
  | lowAgain hp events =>
    rw [exec_of_rgTrig2 hp] at e
    cases e
    exact ⟨[.trigWr false], rfl, rfl, .onWay (.here rfl rfl) (.rise rfl (Nat.zero_le _) (by rw [events]; rfl)) res⟩
  | rise hp ecnt events =>
    rw [exec_of_rgASample hp] at e
    cases e
    exact events ▸ .rise res cfg ecnt
  | fall a ha hp ecnt events =>
    rw [exec_of_rgBSample hp] at e
    cases e
    exact events ▸ .fall ha res cfg ecnt
  | settled hp outcome events =>
    rw [exec_of_rgSettle hp] at e
    cases e
    exact ⟨_, rfl, rfl, .ended rfl outcome (by rw [State.rgSettle_eq, ← res]; rfl) (by rw [events]; rfl)⟩

/-- One SEQ step of `MEASURE` goes to the next point. -/
theorem MeasurePoint.step (m : MeasurePoint T c r₀ s.phase s.work s.res es) (cfg : s.cfg = c) (busy : s.phase ≠ .idle)
    (e : exec (.measure T) s = .next t) : MeasureStepsOn T c r₀ s t es := by
  cases m with
  | decode hp res events =>
    rw [exec_of_decode _ hp] at e
    cases e
    exact ⟨[], by simp [State.begin], rfl, .onWay (.here rfl rfl) (.low rfl (by simp [events, seqEvents])) res⟩
  | onWay way path res =>
    cases way with
    | here hp left =>
      subst hp left
      exact (List.append_nil es ▸ path).step res cfg e
    | delay d =>
      obtain ⟨⟨fs, gs, hist, seq, rfl, way⟩, cfg', res', ecnt, outcome⟩ := d.step e
      refine ⟨fs, hist, cfg', .onWay way ?_ (res'.trans res)⟩
      rw [seq, List.append_assoc]
      exact path.congr ecnt outcome
  | ended hp outcome res events => exact absurd hp busy

theorem measurePoint_invariant : CommandInvariant (.measure T) fun s h =>
    s.cfg = c ∧ MeasurePoint T c r₀ s.phase s.work s.res (seqEvents h) where
  advance := fun ⟨cfg, m⟩ busy e => by
    obtain ⟨fs, hist, cfg', m⟩ := m.step cfg busy e
    exact ⟨fs, hist, cfg'.trans cfg, by rwa [seqEvents_append]⟩
  tick := fun ⟨cfg, m⟩ _ => ⟨cfg, by rw [seqEvents_append]; exact (List.append_nil _).symm ▸ m⟩
  expire := fun ⟨cfg, m⟩ _ => ⟨cfg, by rw [seqEvents_append]; exact (List.append_nil _).symm ▸ m⟩
  pass := fun ⟨cfg, m⟩ x => by
    rw [x.cfg, x.phase, x.work, x.res, seqEvents_append, x.seqEvents_eq, List.append_nil]
    exact ⟨cfg, m⟩

end
end Sys2Proof.Machine
end

section
namespace Sys2Proof.Machine

/-! What `MEASURE` does with the clock and the timer (42_ranger R181 to R183, 40_clock R123, R125). -/

/-- An access of SEQ to the clock or the timer that a delay makes, a tick, or an expiry. -/
def Event.ofTimers : Event → Bool
  | .uifRd => true
  | .uifClr => true
  | .msArm => true
  | .tick => true
  | .msExpire => true
  | _ => false

/-- What a step that records `es` does with the clock's flag and the timer. -/
inductive TimersStep (s t : State) (es : List Event) : Prop
  | quiet (events : ∀ e ∈ es, e.ofTimers = false) (uif : t.clk.uif = s.clk.uif) (mst : t.mst = s.mst)
      (wait : s.phase = .dmWait → t.phase = .dmWait ∨ s.mst.done = true)
  | read (events : es = [.uifRd]) (seen : s.clk.uif = true) (uif : t.clk.uif = s.clk.uif) (mst : t.mst = s.mst)
      (wait : s.phase ≠ .dmWait)
  | clear {fs : List Event} (events : es = .uifClr :: fs) (rest : ∀ e ∈ fs, e.ofTimers = false) (uif : t.clk.uif = false)
      (mst : t.mst = s.mst) (wait : s.phase ≠ .dmWait)
  | arm (events : es = [.msArm]) (uif : t.clk.uif = s.clk.uif) (mst : t.mst = { armed := true, done := false })
      (wait : s.phase ≠ .dmWait) (enters : t.phase = .dmWait)

/-- `UIF` as `HIST` tells it: after a clear it is set, and then read as set, only by a tick (10_state R35). -/
structure FlagTold (u : Bool) (h : List Event) : Prop where
  read : ∀ m, (.uifClr :: m) ++ [.uifRd] <:+: h → .tick ∈ m
  flag : u = true → ∀ m, .uifClr :: m <:+ h → .tick ∈ m

/-- The timer as `HIST` tells it: it is armed only while SEQ waits for it, and every other arming has expired (10_state R37). -/
structure ArmingsTold (p : Phase) (x : MsTimer) (h : List Event) : Prop where
  armed : x.armed = true → p = .dmWait ∧ x.done = false
  count : expiryCount h + x.armed.toNat = h.count .msArm

section
variable {s t : State} {T : Word} {h es fs : List Event} {e : Event} {u v : Bool} {p : Phase} {x : MsTimer}

/-! How a step's effect on the timers is told from what it does. -/

theorem TimersStep.of_event (he : e.ofTimers = false) (clk : t.clk = s.clk) (mst : t.mst = s.mst) (wait : s.phase ≠ .dmWait) :
    TimersStep s t [e] :=
  .quiet (by simpa using he) (by rw [clk]) mst fun h => absurd h wait

/-- The end of a delay records a completion, if anything. -/
theorem State.delayReturn_quiet (s : State) : ∃ fs, s.delayReturn.hist = s.hist ++ fs ∧ (∀ e ∈ fs, e.ofTimers = false) ∧
    s.delayReturn.clk = s.clk ∧ s.delayReturn.mst = s.mst := by
  rcases s.delayReturn_cases with ⟨_, e⟩ | ⟨p, _, e⟩ <;> rw [e]
  · exact ⟨[.complete 0], rfl, by simp [Event.ofTimers], rfl, rfl⟩
  · exact ⟨[], by simp, by simp, by simp, by simp⟩

theorem State.duEntry_timers (hp : s.phase = .duEntry) : ∃ es, s.duEntry.hist = s.hist ++ es ∧ TimersStep s s.duEntry es := by
  have wait : s.phase ≠ .dmWait := by simp [hp]
  rcases s.duEntry_cases with ⟨_, e⟩ | ⟨_, e⟩ <;> rw [e]
  · obtain ⟨fs, hist, rest, clk, mst⟩ := s.delayReturn_quiet
    exact ⟨fs, hist, .quiet rest (by rw [clk]) mst fun h => absurd h wait⟩
  · exact ⟨[.uifClr], rfl, .clear rfl (by simp) rfl rfl wait⟩

theorem State.duWait_timers (hp : s.phase = .duWait) : ∃ es, s.duWait.hist = s.hist ++ es ∧ TimersStep s s.duWait es := by
  have wait : s.phase ≠ .dmWait := by simp [hp]
  rcases s.duWait_cases with ⟨hu, e⟩ | ⟨_, e⟩ <;> rw [e]
  · exact ⟨[.uifRd], rfl, .read rfl hu rfl rfl wait⟩
  · exact ⟨[], by simp, .quiet (by simp) rfl rfl .inl⟩

theorem State.duClear_timers (hp : s.phase = .duClear) : ∃ es, s.duClear.hist = s.hist ++ es ∧ TimersStep s s.duClear es := by
  have wait : s.phase ≠ .dmWait := by simp [hp]
  rcases s.duClear_cases with ⟨_, e⟩ | ⟨_, e⟩ <;> rw [e]
  · obtain ⟨fs, hist, rest, clk, mst⟩ := State.delayReturn_quiet { s.uifClear with work.drem := s.work.drem - 1 }
    exact ⟨.uifClr :: fs, by rw [hist]; simp, .clear rfl rest (by rw [clk]; rfl) mst wait⟩
  · exact ⟨[.uifClr], rfl, .clear rfl (by simp) rfl rfl wait⟩

theorem State.dmArm_timers (hp : s.phase = .dmArm) : ∃ es, s.dmArm.hist = s.hist ++ es ∧ TimersStep s s.dmArm es := by
  have wait : s.phase ≠ .dmWait := by simp [hp]
  rcases s.dmArm_cases with ⟨_, e⟩ | ⟨_, e⟩ <;> rw [e]
  · obtain ⟨fs, hist, rest, clk, mst⟩ := s.delayReturn_quiet
    exact ⟨fs, hist, .quiet rest (by rw [clk]) mst fun h => absurd h wait⟩
  · exact ⟨[.msArm], rfl, .arm rfl rfl rfl wait rfl⟩

theorem State.dmWait_timers (s : State) : ∃ es, s.dmWait.hist = s.hist ++ es ∧ TimersStep s s.dmWait es := by
  rcases s.dmWait_cases with ⟨hd, e⟩ | ⟨_, e⟩ <;> rw [e]
  · exact ⟨[.msDoneRd], rfl, .quiet (by simp [Event.ofTimers]) rfl rfl fun _ => .inr hd⟩
  · exact ⟨[], by simp, .quiet (by simp) rfl rfl .inl⟩

theorem State.Samples.timers (x : s.Samples t) (wait : s.phase ≠ .dmWait) :
    ∃ es, t.hist = s.hist ++ es ∧ TimersStep s t es := by
  rw [x.moved]
  exact ⟨[.echoRd s.echoLevel], rfl, .of_event rfl s.echoSample_clk s.echoSample_mst wait⟩

/-- One SEQ step of `MEASURE`, phase by phase in the order of the meaning's arms. -/
theorem execMeasure_timers (h : execMeasure T s = .next t) : ∃ es, t.hist = s.hist ++ es ∧ TimersStep s t es := by
  unfold execMeasure at h
  split at h <;> rename_i hp <;> cases h
  · exact ⟨[], by simp, .quiet (by simp) (by simp) (by simp) fun h => by rw [hp] at h; cases h⟩
  · exact ⟨_, rfl, .of_event (e := .trigWr false) rfl rfl rfl (by simp [hp])⟩
  · exact ⟨_, rfl, .of_event (e := .trigWr true) rfl rfl rfl (by simp [hp])⟩
  · exact ⟨_, rfl, .of_event (e := .trigWr false) rfl rfl rfl (by simp [hp])⟩
  · exact (s.sampleA_samples T).timers (by simp [hp])
  · exact (s.sampleB_samples T).timers (by simp [hp])
  · exact ⟨_, rfl, .of_event (e := .complete s.work.ekind) rfl rfl rfl (by simp [hp])⟩
  · exact State.duEntry_timers hp
  · exact State.duWait_timers hp
  · exact State.duClear_timers hp
  · exact State.dmArm_timers hp
  · exact s.dmWait_timers

/-! The flag along a run. -/

theorem FlagTold.concat (f : FlagTold u h) (read : e = .uifRd → u = true)
    (flag : v = true → e ≠ .uifClr ∧ (u = true ∨ e = .tick)) : FlagTold v (h ++ [e]) where
  read := fun m ⟨a, b, split⟩ => by
    rcases b.eq_nil_or_concat with rfl | ⟨b, x, rfl⟩
    · rw [List.append_nil, ← List.append_assoc] at split
      obtain ⟨before, last⟩ := List.append_inj' split rfl
      exact f.flag (read (List.cons.inj last).1.symm) m ⟨a, before⟩
    · rw [List.concat_eq_append, ← List.append_assoc] at split
      exact f.read m ⟨a, b, (List.append_inj' split rfl).1⟩
  flag := fun hv m hm => by
    obtain ⟨not_clear, told⟩ := flag hv
    rcases List.suffix_concat_iff.mp hm with hm | ⟨k, split, hk⟩
    · cases hm
    · cases k with
      | nil => exact absurd (List.cons.inj split).1.symm not_clear
      | cons a k =>
        obtain ⟨rfl, rfl⟩ := List.cons.inj split
        rcases told with hu | rfl
        · exact List.mem_append_left _ (f.flag hu k hk)
        · exact List.mem_concat_self

theorem FlagTold.append (f : FlagTold u h) (quiet : ∀ e ∈ es, e.ofTimers = false) : FlagTold u (h ++ es) := by
  induction es generalizing h with
  | nil => simpa using f
  | cons e es ih =>
    have he : e.ofTimers = false := quiet e List.mem_cons_self
    have next : FlagTold u (h ++ [e]) := by
      refine f.concat (fun read => ?_) fun hu => ⟨fun clear => ?_, .inl hu⟩
      · rw [read] at he; cases he
      · rw [clear] at he; cases he
    simpa using ih next fun e he => quiet e (List.mem_cons_of_mem _ he)

theorem FlagTold.nil (u : Bool) : FlagTold u [] := ⟨fun m hm => by simp at hm, fun _ m hm => by simp at hm⟩

theorem State.Passes.quiet (x : s.Passes t es) : ∀ e ∈ es, e.ofTimers = false := fun e he => by
  obtain ⟨f, rfl⟩ := x.silent e he
  rfl

theorem FlagTold.step (f : FlagTold s.clk.uif h) (x : TimersStep s t es) : FlagTold t.clk.uif (h ++ es) := by
  cases x with
  | quiet events uif mst wait => rw [uif]; exact f.append events
  | read events seen uif mst wait => subst events; exact f.concat (fun _ => seen) fun _ => ⟨nofun, .inl seen⟩
  | clear events rest uif mst wait =>
    subst events
    have cleared : FlagTold false (h ++ [.uifClr]) := f.concat nofun nofun
    rw [uif, List.append_cons]
    exact cleared.append rest
  | arm events uif mst wait enters => subst events; exact f.concat nofun fun hu => ⟨nofun, .inl (uif ▸ hu)⟩

theorem flagTold_invariant : CommandInvariant (.measure T) fun s h => FlagTold s.clk.uif h where
  advance := fun f _ e => by
    obtain ⟨es, hist, x⟩ := execMeasure_timers e
    exact ⟨es, hist, f.step x⟩
  tick := fun f _ => f.concat nofun fun _ => ⟨nofun, .inr rfl⟩
  expire := fun f _ => f.concat nofun fun hu => ⟨nofun, .inl hu⟩
  pass := fun f x => by rw [x.clk]; exact f.append x.quiet

/-! The timer along a run. -/

theorem ArmingsTold.keep (a : ArmingsTold s.phase s.mst h) (mst : t.mst = s.mst)
    (wait : s.phase = .dmWait → t.phase = .dmWait ∨ s.mst.done = true) (arm : .msArm ∉ es) (expire : .msExpire ∉ es) :
    ArmingsTold t.phase t.mst (h ++ es) where
  armed := fun armed => by
    rw [mst] at armed ⊢
    obtain ⟨waits, fresh⟩ := a.armed armed
    rw [fresh] at wait
    exact ⟨(wait waits).resolve_right Bool.false_ne_true, fresh⟩
  count := by
    have unexpired : expiryCount es = 0 := List.count_eq_zero.mpr expire
    rw [mst, expiryCount_append, List.count_append, List.count_eq_zero.mpr arm, unexpired]
    exact a.count

/-- Outside `DM_WAIT` the timer is not armed. -/
theorem ArmingsTold.disarmed (a : ArmingsTold p x h) (wait : p ≠ .dmWait) : x.armed = false :=
  Bool.eq_false_iff.mpr fun armed => wait (a.armed armed).1

theorem not_mem_of_quiet (quiet : ∀ e ∈ es, e.ofTimers = false) (he : e.ofTimers = true) : e ∉ es :=
  fun mem => by rw [quiet e mem] at he; cases he

theorem ArmingsTold.step (a : ArmingsTold s.phase s.mst h) (x : TimersStep s t es) :
    ArmingsTold t.phase t.mst (h ++ es) := by
  cases x with
  | quiet events uif mst wait => exact a.keep mst wait (not_mem_of_quiet events rfl) (not_mem_of_quiet events rfl)
  | read events seen uif mst wait => exact a.keep mst (fun h => absurd h wait) (by simp [events]) (by simp [events])
  | clear events rest uif mst wait =>
    subst events
    exact a.keep mst (fun h => absurd h wait) (by simpa using not_mem_of_quiet rest rfl)
      (by simpa using not_mem_of_quiet rest rfl)
  | arm events uif mst wait enters =>
    subst events
    have count := a.count
    rw [a.disarmed wait] at count
    refine ⟨fun _ => ⟨enters, by rw [mst]⟩, ?_⟩
    rw [mst, expiryCount_append, List.count_append, ← count]; rfl

theorem armingsTold_invariant : CommandInvariant (.measure T) fun s h => ArmingsTold s.phase s.mst h where
  advance := fun a _ e => by
    obtain ⟨es, hist, x⟩ := execMeasure_timers e
    exact ⟨es, hist, a.step x⟩
  tick := fun a _ => a.keep (t := State.tick _) rfl .inl (by simp) (by simp)
  expire := fun a armed => by
    refine ⟨nofun, ?_⟩
    rw [expiryCount_append, List.count_append, ← a.count, armed]; rfl
  pass := fun a x => a.keep x.mst (fun h => .inl (x.phase.trans h)) (not_mem_of_quiet x.quiet rfl) (not_mem_of_quiet x.quiet rfl)

end

/-! Segments of a history by SEQ's events in them. -/

section
variable {h es xs ys : List Event} {e : Event} {n : Nat}

theorem not_mem_of_seqEvents (he : e.ofSeq = true) (mem : e ∉ seqEvents h) : e ∉ h :=
  fun m => mem (List.mem_filter.mpr ⟨m, he⟩)

/-- An event among SEQ's splits the history. -/
theorem exists_split_of_seqEvents (events : seqEvents h = xs ++ e :: ys) :
    ∃ a b, h = a ++ [e] ++ b ∧ seqEvents a = xs ∧ seqEvents b = ys := by
  obtain ⟨a, b, rfl, ha, hb⟩ := List.filter_eq_append_iff.mp events
  obtain ⟨m, b, rfl, other, _, hb⟩ := List.filter_eq_cons_iff.mp hb
  have none : seqEvents m = [] := List.filter_eq_nil_iff.mpr other
  exact ⟨a ++ m, b, by simp, by rw [seqEvents_append, none, List.append_nil]; exact ha, hb⟩

/-- From a clear on, each wait that is over holds a tick of its own. -/
theorem le_tickCount_of_waitsUs (told : ∀ m, (.uifClr :: m) ++ [.uifRd] <:+: .uifClr :: h → .tick ∈ m)
    (events : seqEvents h = waitsUs n) : n ≤ tickCount h := by
  induction n generalizing h with
  | zero => exact Nat.zero_le _
  | succ n ih =>
    obtain ⟨m, k, rfl, _, events⟩ := exists_split_of_seqEvents (xs := []) (e := .uifRd) (ys := .uifClr :: waitsUs n) events
    obtain ⟨m', k, rfl, _, events⟩ := exists_split_of_seqEvents (xs := []) events
    have ticked : 0 < tickCount m := List.count_pos_iff.mpr (told m ⟨[], m' ++ [.uifClr] ++ k, by simp⟩)
    have rest : n ≤ tickCount k := ih (fun a ha => told a (ha.trans ⟨.uifClr :: (m ++ [.uifRd] ++ m'), [], by simp⟩)) events
    simp only [tickCount_append]
    omega

/-- A segment in which SEQ's events are those of a delay holds as many ticks. -/
theorem FlagTold.le_tickCount {u : Bool} {a b d : List Event} (f : FlagTold u h) (split : h = a ++ b ++ d)
    (events : seqEvents b = delayUsEvents 10) : 10 ≤ tickCount b := by
  obtain ⟨m, k, rfl, _, events⟩ := exists_split_of_seqEvents (xs := []) (e := .uifClr) (ys := waitsUs 10) events
  have within : .uifClr :: k <:+: h := ⟨a ++ m, d, by simp [split]⟩
  have waits : 10 ≤ tickCount k := le_tickCount_of_waitsUs (fun x hx => f.read x (hx.trans within)) events
  simp only [tickCount_append]
  omega

end

/-! The end of `MEASURE`, and its settlement. -/

section
variable {s t : State} {T dur : Word} {c : Config} {r₀ r : Results} {p : Phase} {w : Work} {h es xs : List Event} {e : Event}
  {val : Bool} {code : Code} {k : Nat}

theorem not_mem_delayUsEvents {n : Nat} (clear : e ≠ .uifClr) (read : e ≠ .uifRd) : e ∉ delayUsEvents n := by
  unfold delayUsEvents
  split
  · simp
  · simpa using ⟨clear, fun _ => ⟨read, clear⟩⟩

theorem not_mem_echoLoopEvents {l : Bool} {n : Nat} (echo : e ≠ .echoRd l) (delay : e ∉ delayUsEvents 1) :
    e ∉ echoLoopEvents l n := by
  simp [echoLoopEvents, echo, delay]

theorem EchoOutcome.not_mem (o : EchoOutcome T val dur code xs) (echo : ∀ l, e ≠ .echoRd l) (delay : e ∉ delayUsEvents 1) :
    e ∉ xs := by
  have loop : ∀ l n, e ∉ echoLoopEvents l n := fun l _ => not_mem_echoLoopEvents (echo l) delay
  cases o with
  | noRise hv hd hc events => simp [events, loop, echo]
  | noFall a ha hv hd hc events => simp [events, loop, echo]
  | echo a ha hv hd hc events => simp [events, loop, echo]

/-- Before its end `MEASURE` records no completion. -/
theorem MeasurePath.complete_not_mem {x : Code} (m : MeasurePath T c w p es) : .complete x ∉ es := by
  have delay := complete_not_mem_delayUsEvents x
  have loop : ∀ l n, .complete x ∉ echoLoopEvents l n := fun l _ => not_mem_echoLoopEvents nofun (delay 1)
  cases m with
  | low hp events => simp [events]
  | high hp events => simp [events, delay]
  | lowAgain hp events => simp [events, delay]
  | rise hp le events => simp [events, triggerEvents, delay, loop]
  | fall a ha hp le events => simp [events, triggerEvents, delay, loop]
  | settled hp o events =>
    have echo := o.not_mem (e := .complete x) nofun (delay 1)
    simp [events, triggerEvents, delay, echo, complete_not_mem_delayMsEvents]

/-- What a completed `MEASURE` was and left: how READ_ECHO ended, SEQ's events and the result registers. -/
structure Measured (T : Word) (c : Config) (r₀ r : Results) (es : List Event) (val : Bool) (dur : Word) (code : Code)
    (xs : List Event) : Prop where
  outcome : EchoOutcome T val dur code xs
  res : r = r₀.measured val dur code
  events : es = triggerEvents ++ xs ++ delayMsEvents c.settleMs.toNat ++ [.complete code]

/-- The completion is the last of SEQ's events. -/
theorem MeasurePoint.of_complete (m : MeasurePoint T c r₀ p w r es) (hc : .complete code ∈ es) :
    p = .idle ∧ ∃ val dur xs, Measured T c r₀ r es val dur code xs := by
  cases m with
  | decode hp res events => simp [events] at hc
  | onWay way path res => exact absurd (List.mem_append_left _ hc) path.complete_not_mem
  | @ended val dur last xs hp outcome res events =>
    have delay := complete_not_mem_delayUsEvents code
    have echo := outcome.not_mem (e := .complete code) nofun (delay 1)
    obtain rfl : code = last := by
      simpa [events, triggerEvents, delay, echo, complete_not_mem_delayMsEvents] using hc
    exact ⟨hp, _, _, _, outcome, res, events⟩

theorem measured_of_runOf (starts : s.Starts (.measure T)) (run : RunOf k s t h) (hc : .complete code ∈ h) :
    t.phase = .idle ∧ ∃ val dur xs, Measured T s.cfg s.res t.res (seqEvents h) val dur code xs :=
  (measurePoint_invariant.of_runOf starts ⟨rfl, .decode starts.1 rfl rfl⟩ run).2.of_complete (mem_seqEvents_complete hc)

theorem count_msArm_delayMsEvents (n : Nat) : (delayMsEvents n).count .msArm = n := by
  induction n with
  | zero => rfl
  | succ n ih => rw [delayMsEvents_succ, List.count_append, ih]; rfl

/-- The settle arms the timer once per millisecond, and nothing else does. -/
theorem Measured.count_msArm (m : Measured T c r₀ r es val dur code xs) : es.count .msArm = c.settleMs.toNat := by
  have trigger : triggerEvents.count .msArm = 0 := by decide
  have echo : xs.count .msArm = 0 := List.count_eq_zero.mpr (m.outcome.not_mem nofun (by decide))
  rw [m.events, List.count_append, List.count_append, List.count_append, trigger, echo, count_msArm_delayMsEvents]
  simp

/-- Settles O42: the trace by the invariant `MeasurePoint`, and the expiries because at the end every arming has expired. -/
theorem measureTrace : Obligations.MeasureTrace := by
  intro T k s t h code starts idle run hc
  obtain ⟨ended, val, dur, xs, m⟩ := measured_of_runOf starts run hc
  have armings : ArmingsTold t.phase t.mst h :=
    armingsTold_invariant.of_runOf starts ⟨by simp [idle], by simp [idle, expiryCount]⟩ run
  have expiries : expiryCount h = s.cfg.settleMs.toNat := by
    have disarmed : t.mst.armed = false := armings.disarmed (by simp [ended])
    have count := armings.count
    rw [disarmed] at count
    rw [← m.count_msArm, seqEvents, List.count_filter rfl]
    exact count
  obtain ⟨outcome, res, events⟩ := m
  rw [res, events]
  refine ⟨rfl, rfl, rfl, expiries, ?_⟩
  cases outcome with
  | noRise hv hd hc events => exact .inl ⟨hc, hv, hd, by simp [events, hc]⟩
  | noFall a ha hv hd hc events => exact .inr (.inl ⟨hc, hv, hd, a, ha, by simp [events, hc]⟩)
  | echo a ha hv hd hc events => exact .inr (.inr ⟨hc, hv, hd, a, ha, by simp [events, hc, Results.measured]⟩)

/-- Settles O44: without a high sample READ_ECHO ended without a rise. -/
theorem noEchoNoRange : Obligations.NoEchoNoRange := by
  intro T k s t h code starts run hc silent
  obtain ⟨_, val, dur, xs, outcome, res, events⟩ := measured_of_runOf starts run hc
  have low : .echoRd true ∉ xs := fun mem => silent (List.mem_of_mem_filter (p := Event.ofSeq) (by
    show _ ∈ seqEvents h
    simp [events, mem]))
  cases outcome with
  | noRise hv hd hc events => exact ⟨hc, by rw [res, hv, hd, hc]; rfl⟩
  | noFall a ha hv hd hc events => simp [events] at low
  | echo a ha hv hd hc events => simp [events] at low

/-- Settles O43: SEQ's events split the history at the three drives, and each delay between them holds its ticks. -/
theorem triggerHeld : Obligations.TriggerHeld := by
  intro T k s t h code starts run hc
  obtain ⟨_, val, dur, xs, outcome, _, events⟩ := measured_of_runOf starts run hc
  have told : FlagTold t.clk.uif h := flagTold_invariant.of_runOf starts (.nil _) run
  obtain ⟨a, b, rfl, ha, events⟩ := exists_split_of_seqEvents (xs := []) (e := .trigWr false) (ys := delayUsEvents 10 ++
    .trigWr true :: (delayUsEvents 10 ++ .trigWr false :: (xs ++ delayMsEvents s.cfg.settleMs.toNat ++ [.complete code])))
    (by rw [events]; simp [triggerEvents])
  obtain ⟨b, d, rfl, hb, events⟩ := exists_split_of_seqEvents events
  obtain ⟨d, r, rfl, hd, hr⟩ := exists_split_of_seqEvents events
  refine ⟨a, b, d, r, by simp, fun l => ?_, told.le_tickCount (a := a ++ [.trigWr false]) (d := _) (by simp; rfl) hb,
    told.le_tickCount (a := a ++ [.trigWr false] ++ b ++ [.trigWr true]) (d := _) (by simp; rfl) hd⟩
  have delay : ∀ n, .trigWr l ∉ delayUsEvents n := fun n => not_mem_delayUsEvents nofun nofun
  refine not_mem_of_seqEvents rfl ?_
  simp [ha, hb, hd, hr, delay, outcome.not_mem (e := .trigWr l) nofun (delay 1), delayMsEvents]

end
end Sys2Proof.Machine
end

/-! ### The moves of CLK, MST and HOST (O9, O10, O12, O13) -/

section
namespace Sys2Proof.Machine

/-! One step of the machine, by the agent whose move it is. -/

section
variable {s t : State}

theorem step_of_tick (hm : s.move = .tick) (hr : s.clk.run = true) : step s = .next s.dropMove.tick := by
  rw [step, State.machineStep_eq, hm, State.act, if_pos (by simpa using hr)]

theorem step_of_tick_stopped (hm : s.move = .tick) (hr : s.clk.run = false) : step s = .next s.dropMove := by
  rw [step, State.machineStep_eq, hm, State.act, if_neg (by simp [hr])]

theorem step_of_expiry (hm : s.move = .msExpire) (ha : s.mst.armed = true) : step s = .next s.dropMove.msExpire := by
  rw [step, State.machineStep_eq, hm, State.act, if_pos (by simpa using ha)]

theorem step_of_expiry_disarmed (hm : s.move = .msExpire) (ha : s.mst.armed = false) : step s = .next s.dropMove := by
  rw [step, State.machineStep_eq, hm, State.act, if_neg (by simp [ha])]

theorem step_of_hostIssue {d : Desc} (hm : s.move = .hostIssue d) (hf : s.hostFaulted = false) :
    step s = .next (s.dropMove.issue d) := by
  rw [step, State.machineStep_eq, hm, State.act, State.hostStep_of_not_faulted (by simpa using hf)]

theorem step_of_hostRead {r : Nat} (hm : s.move = .hostRead r) (hf : s.hostFaulted = false) :
    step s = s.dropMove.hostRead r := by
  rw [step, State.machineStep_eq, hm, State.act, State.hostStep_of_not_faulted (by simpa using hf)]

theorem step_of_hostStore {a : Word} {v : Byte} (hm : s.move = .hostStore a v) (hf : s.hostFaulted = false) :
    step s = s.dropMove.hostStore a v := by
  rw [step, State.machineStep_eq, hm, State.act, State.hostStep_of_not_faulted (by simpa using hf)]

end

/-- Settles O12: the tick is CLK's step while the counter runs, and its turn passes else. -/
theorem tickStep : Obligations.TickStep := by
  refine fun s hm => ⟨fun hr => ?_, fun hr t e => ?_⟩
  · rw [step_of_tick hm hr]
    simp [State.tick, nextCnt]
  · rw [step_of_tick_stopped hm hr] at e
    cases e
    exact ⟨s.dropMove_hist, s.dropMove_clk⟩

/-- Settles O13: the expiry is MST's step while the timer is armed, and its turn passes else. -/
theorem expiryStep : Obligations.ExpiryStep := by
  refine fun s hm => ⟨fun ha => ?_, fun ha t e => ?_⟩
  · rw [step_of_expiry hm ha]
    simp [State.msExpire]
  · rw [step_of_expiry_disarmed hm ha] at e
    cases e
    exact ⟨s.dropMove_hist, s.dropMove_mst⟩

/-! HOST (60_exceptions R224, R226). -/

/-- What HOST may not touch (20_memory R63, 60_exceptions R224). -/
structure State.SamePeriphery (s t : State) : Prop where
  per : t.per = s.per := by rfl
  trig : t.trig = s.trig := by rfl
  clk : t.clk = s.clk := by rfl
  mst : t.mst = s.mst := by rfl

theorem State.act_samePeriphery {m : Move} {s t : State} (hs : m ≠ .seq) (ht : m ≠ .tick) (hm : m ≠ .msExpire)
    (e : s.act m = .next t) : s.SamePeriphery t := by
  rcases State.act_next e with ⟨h, _⟩ | ⟨h, _⟩ | ⟨h, _⟩ | ⟨d, _, _, rfl⟩ | ⟨r, _, _, e⟩ | ⟨a, v, _, _, e⟩ | ⟨_, rfl⟩
  · exact absurd h hs
  · exact absurd h ht
  · exact absurd h hm
  · rcases s.issue_cases d with ⟨_, e⟩ | ⟨_, e⟩ <;> rw [e] <;> exact {}
  · obtain ⟨_, ⟨v, _, rfl⟩ | ⟨_, rfl⟩⟩ := State.hostRead_next e <;> exact {}
  · obtain ⟨_, rfl⟩ := State.hostStore_next e
    exact {}
  · exact {}

/-- Settles O9: the two outcomes of an issue and of a store, and what no move of HOST touches. -/
theorem hostMoves : Obligations.HostMoves := by
  refine ⟨fun s d hm hf idle => ?_, fun s d hm hf busy => ?_, fun s a v hm hf idle => ?_, fun s a v hm hf busy => ?_,
    fun s t e hs ht hx => ?_⟩
  · rw [step_of_hostIssue hm hf]
    rcases s.dropMove.issue_cases d with ⟨_, e⟩ | ⟨busy, _⟩
    · rw [e]
      simp [State.emit, State.latch, Cmd.ofDesc, Desc.op, Desc.addr, Desc.data, Desc.count, Desc.arg]
    · exact absurd idle (by simpa using busy)
  · rw [step_of_hostIssue hm hf]
    rcases s.dropMove.issue_cases d with ⟨idle, _⟩ | ⟨_, e⟩
    · exact absurd (by simpa using idle) busy
    · rw [e]
      simp [State.raise, Faults.add]
  · rw [step_of_hostStore hm hf]
    simp [State.hostStore, State.busy, idle]
  · rw [step_of_hostStore hm hf]
    simp [State.hostStore, State.busy, busy]
  · obtain ⟨per, trig, clk, mst⟩ := State.act_samePeriphery (s := s.dropMove) hs ht hx e
    exact ⟨per.trans s.dropMove_per, trig.trans s.dropMove_trig, clk.trans s.dropMove_clk, mst.trans s.dropMove_mst⟩

theorem bitWord_eq (b : Bool) : bitWord b = if b then 1 else 0 := by cases b <;> rfl

theorem State.bitWord_busy (s : State) : bitWord s.busy = if s.phase = .idle then 0 else 1 := by
  by_cases h : s.phase = .idle <;> simp [State.busy, bitWord_eq, h]

/-- A read of one of the six registers returns its value, or raises `UNWRITTEN_READ` (10_state R23, R48). -/
theorem State.hostRead_eq {r : Nat} (hr : r ≤ 5) (s : State) : s.hostRead r = .next (match s.hostRegister r with
    | some v => { s with hostData := v }
    | none => s.raise (.unwrittenRead r)) := by
  rw [State.hostRead, if_neg (by omega)]
  cases s.hostRegister r <;> rfl

end Sys2Proof.Machine
end

/-! ### What a step does to the results (O10, O46) -/

section
namespace Sys2Proof.Machine

/-- The result registers but for `RES_STATUS` when command `i` completes by its step from `s` (60_exceptions R225). -/
def resultsOf (i : Instr) (s : State) : Results :=
  match i with
  | .clockNow => { s.res with value := s.clk.cnt, valueWritten := true }
  | .measure _ =>
      if s.phase = .rgSettle then { s.res with
        rngValid := s.work.val, rngDuration := s.work.dur, rngDistance := distance s.work.dur, rngWritten := true }
      else s.res
  | _ => s.res

/-- The statuses with which command `i` may complete by its step from `s`, whatever `s` (60_exceptions R211). -/
def CompletesWith (i : Instr) (s : State) (c : Code) : Prop :=
  c = 0 ∨ (i.isI2c = true ∧ ((s.cfg.mode = .bounded ∧ c = 1) ∨ (s.phase = .i2AbClear ∧ c = s.work.err))) ∨
    ∃ n, i = .measure n ∧ c = s.work.ekind

/-- No completion is recorded in `es`. -/
def Incomplete (es : List Event) : Prop := ∀ c, Event.complete c ∉ es

/-- From `s` to `t` no result register changed and no completion was recorded. -/
def State.KeepsResults (s t : State) : Prop := t.res = s.res ∧ ∃ es, t.hist = s.hist ++ es ∧ Incomplete es

/-- What a SEQ step of command `i` does to the result registers: nothing, or it completes the command, with a status it may
complete with. -/
inductive State.ResultEffect (i : Instr) (s : State) : State → Prop
  | keeps {t : State} (h : s.KeepsResults t) : ResultEffect i s t
  | completes {u : State} {es : List Event} (c : Code) (res : u.res = resultsOf i s) (hist : u.hist = s.hist ++ es)
      (silent : Incomplete es) (status : CompletesWith i s c) : ResultEffect i s (u.complete c)

theorem incomplete_nil : Incomplete [] := fun _ => List.not_mem_nil

theorem incomplete_singleton {e : Event} (he : e.isComplete = false) : Incomplete [e] := by
  intro c h
  rw [← List.mem_singleton.mp h] at he
  cases he

section
variable {i : Instr} {s t u : State} {e : Event}

theorem State.KeepsResults.of_hist_eq (hist : t.hist = s.hist) (res : t.res = s.res) : s.KeepsResults t :=
  ⟨res, [], by simpa using hist, incomplete_nil⟩

theorem State.KeepsResults.of_event (hist : t.hist = s.hist ++ [e]) (res : t.res = s.res) (he : e.isComplete = false := by rfl) :
    s.KeepsResults t :=
  ⟨res, [e], hist, incomplete_singleton he⟩

theorem State.KeepsResults.complete {c : Code} (h : s.KeepsResults u) (res : resultsOf i s = s.res)
    (status : CompletesWith i s c) : s.ResultEffect i (u.complete c) :=
  let ⟨same, _, hist, silent⟩ := h
  .completes c (same.trans res.symm) hist silent status

/-- The end of a delay completes the command with `OK`, if anything. -/
theorem State.KeepsResults.delayReturn (h : s.KeepsResults u) (res : resultsOf i s = s.res) :
    s.ResultEffect i u.delayReturn := by
  rcases u.delayReturn_cases with ⟨_, e⟩ | ⟨q, _, e⟩ <;> rw [e]
  · exact h.complete res (.inl rfl)
  · exact .keeps (by simpa [State.KeepsResults] using h)

end

/-! The delays (40_clock R123, R125). -/

section
variable {i : Instr} {s : State} (res : resultsOf i s = s.res)
include res

theorem State.duEntry_results : s.ResultEffect i s.duEntry := by
  rcases s.duEntry_cases with ⟨_, e⟩ | ⟨_, e⟩ <;> rw [e]
  · exact (State.KeepsResults.of_hist_eq rfl rfl).delayReturn res
  · exact .keeps (.of_event s.uifClear_hist rfl)

theorem State.duClear_results : s.ResultEffect i s.duClear := by
  rcases s.duClear_cases with ⟨_, e⟩ | ⟨_, e⟩ <;> rw [e]
  · exact State.KeepsResults.delayReturn (.of_event s.uifClear_hist rfl) res
  · exact .keeps (.of_event s.uifClear_hist rfl)

theorem State.dmArm_results : s.ResultEffect i s.dmArm := by
  rcases s.dmArm_cases with ⟨_, e⟩ | ⟨_, e⟩ <;> rw [e]
  · exact (State.KeepsResults.of_hist_eq rfl rfl).delayReturn res
  · exact .keeps (.of_event s.mstArm_hist rfl)

end

theorem State.duWait_keepsResults (s : State) : s.KeepsResults s.duWait := by
  rcases s.duWait_cases with ⟨_, e⟩ | ⟨_, e⟩ <;> rw [e]
  · exact .of_event (s.emit_hist _) rfl
  · exact .of_hist_eq rfl rfl

theorem State.dmWait_keepsResults (s : State) : s.KeepsResults s.dmWait := by
  rcases s.dmWait_cases with ⟨_, e⟩ | ⟨_, e⟩ <;> rw [e]
  · exact .of_event (s.emit_hist _) rfl
  · exact .of_hist_eq rfl rfl

/-! Each command, phase by phase in the order of the meaning's arms. -/

section
variable {s t : State} {n : Word}

theorem execInitClock_results (h : execInitClock s = .next t) : s.ResultEffect .initClock t := by
  unfold execInitClock at h
  split at h <;> cases h
  · exact .keeps (.of_hist_eq (s.goto_hist _) (s.goto_res _))
  · unfold State.ckInit
    split
    · exact .keeps (.of_event (s.raise_hist _) rfl)
    · exact State.KeepsResults.complete (.of_event (e := .clkInit) rfl s.dropDraw_res) rfl (.inl rfl)

theorem execClockNow_results (h : execClockNow s = .next t) : s.ResultEffect .clockNow t := by
  unfold execClockNow at h
  split at h <;> cases h
  · exact .keeps (.of_hist_eq (s.goto_hist _) (s.goto_res _))
  · exact .completes _ rfl s.clkRead_hist (incomplete_singleton rfl) (.inl rfl)

theorem execDelayUs_results (h : execDelayUs n s = .next t) : s.ResultEffect (.delayUs n) t := by
  unfold execDelayUs at h
  split at h <;> cases h
  · exact .keeps (.of_hist_eq rfl rfl)
  · exact State.duEntry_results rfl
  · exact .keeps s.duWait_keepsResults
  · exact State.duClear_results rfl

theorem execDelayMs_results (h : execDelayMs n s = .next t) : s.ResultEffect (.delayMs n) t := by
  unfold execDelayMs at h
  split at h <;> cases h
  · exact .keeps (.of_hist_eq rfl rfl)
  · exact State.dmArm_results rfl
  · exact .keeps s.dmWait_keepsResults

theorem State.Samples.keepsResults (x : s.Samples t) : s.KeepsResults t := by
  rw [x.moved]
  exact .of_event s.echoSample_hist s.echoSample_res

theorem execMeasure_results (h : execMeasure n s = .next t) : s.ResultEffect (.measure n) t := by
  unfold execMeasure at h
  split at h <;> rename_i hp <;> cases h
  · exact .keeps (.of_hist_eq (s.goto_hist _) (s.goto_res _))
  · exact .keeps (.of_event (s.drive_hist _) rfl)
  · exact .keeps (.of_event (s.drive_hist _) rfl)
  · exact .keeps (.of_event (s.drive_hist _) rfl)
  · exact .keeps (s.sampleA_samples n).keepsResults
  · exact .keeps (s.sampleB_samples n).keepsResults
  · exact .completes (es := []) _ (by simp [resultsOf, hp]) (by simp) incomplete_nil (.inr (.inr ⟨n, rfl, rfl⟩))
  · exact State.duEntry_results (by simp [resultsOf, hp])
  · exact .keeps s.duWait_keepsResults
  · exact State.duClear_results (by simp [resultsOf, hp])
  · exact State.dmArm_results (by simp [resultsOf, hp])
  · exact .keeps s.dmWait_keepsResults

end

section
variable {i : Instr} {s t : State} {w : Wait} {y : I2cAccess}

theorem resultsOf_of_isI2c (hi : i.isI2c = true) (s : State) : resultsOf i s = s.res := by
  cases i with
  | clockNow => cases hi
  | measure n => cases hi
  | _ => rfl

theorem State.pread_keepsResults (r : PReg) (s : State) : s.KeepsResults (s.pread r) := .of_event (s.pread_hist r) (s.pread_res r)

theorem State.polled_keepsResults (s : State) : s.KeepsResults s.polled := s.pread_keepsResults .status

theorem State.waitStep_results {n : Phase} (hi : i.isI2c = true) (hp : s.phase = w.phase) :
    s.ResultEffect i (s.waitStep w n) := by
  rcases State.waitStep_cases (n := n) hp with ⟨_, e⟩ | ⟨_, _, e⟩ | ⟨_, mode, _, e⟩ | ⟨_, _, _, e⟩ <;> rw [e]
  · exact .keeps (.of_event ((State.goto_hist _ _).trans (s.pread_hist _)) (by simp))
  · exact .keeps (s.pread_keepsResults _)
  · unfold State.waitFail
    split
    · exact .keeps s.polled_keepsResults
    · next ha =>
      rw [Wait.eq_idle_of_not_aborts ha]
      exact s.polled_keepsResults.complete (resultsOf_of_isI2c hi s) (.inr (.inl ⟨hi, .inl ⟨mode, rfl⟩⟩))
  · exact .keeps s.polled_keepsResults

theorem State.abortPoll_keepsResults (s : State) : s.KeepsResults s.abortPoll := by
  rcases s.abortPoll_cases with ⟨_, e⟩ | ⟨_, _, e⟩ | ⟨_, _, e⟩ <;> rw [e] <;> exact s.pread_keepsResults .status

/-- No access is a completion, or leads to the abort. -/
theorem i2cAccess_spec (h : i2cAccess i s = some y) : y.event.isComplete = false ∧ y.next.isAbort = false := by
  unfold i2cAccess at h
  split at h <;> cases h
  -- where the loop test decides, the next phase is a poll either way
  case h_4 | h_6 | h_10 | h_12 => exact ⟨rfl, by split <;> rfl⟩
  all_goals exact ⟨rfl, rfl⟩

/-- An access changes no result register. -/
theorem State.Accesses.keepsResults (a : s.Accesses y t) (h : i2cAccess i s = some y) (e : exec i s = .next t) :
    s.KeepsResults t := by
  obtain ⟨silent, -⟩ := i2cAccess_spec h
  refine .of_event a.hist ?_ silent
  cases exec_effect e with
  | goesOn g => rw [a.frame.res, g.status, g.written]
  | completes g c =>
    have last : Event.complete c = y.event := (List.cons.inj (List.append_inj' a.hist rfl).2).1
    rw [← last] at silent
    cases silent
  | reinit => rfl

theorem exec_i2c_results (hi : i.isI2c = true) (e : exec i s = .next t) : s.ResultEffect i t := by
  have res := resultsOf_of_isI2c hi s
  have cleared : s.KeepsResults (s.pwrite .clear clearWord) := .of_event (s.pwrite_hist _ _) rfl
  cases exec_i2cStep hi e with
  | decode hp => exact .keeps (.of_hist_eq rfl rfl)
  | wait w n hn hp => exact State.waitStep_results hi hp
  | access y t h a => exact .keeps (a.keepsResults h e)
  | clear hp => exact cleared.complete res (.inl rfl)
  | abStop hp => exact .keeps (.of_event s.setStop_hist rfl)
  | abPoll hp => exact .keeps s.abortPoll_keepsResults
  | abClear hp => exact cleared.complete res (.inr (.inl ⟨hi, .inr ⟨hp, rfl⟩⟩))

/-- A SEQ step of a command changes no result register, or completes the command (60_exceptions R225). -/
theorem exec_results (e : exec i s = .next t) : s.ResultEffect i t := by
  cases i with
  | initClock => exact execInitClock_results e
  | clockNow => exact execClockNow_results e
  | delayUs n => exact execDelayUs_results e
  | delayMs n => exact execDelayMs_results e
  | i2cWriteByte addr data => exact exec_i2c_results rfl e
  | i2cWriteBytes addr count buf => exact exec_i2c_results rfl e
  | i2cReadBytes addr reg count buf => exact exec_i2c_results rfl e
  | measure n => exact execMeasure_results e

/-- A SEQ step that leaves SEQ busy changes no result register. -/
theorem State.ResultEffect.res_of_busy (x : s.ResultEffect i t) (busy : t.phase ≠ .idle) : t.res = s.res := by
  cases x with
  | keeps h =>
    obtain ⟨same, _⟩ := h
    exact same
  | completes c res hist silent status => exact absurd rfl busy

/-- SEQ's turn passes, completes an illegal descriptor, or is a step of a command. -/
theorem State.seqStep_res_of_busy (e : s.seqStep = .next t) (busy : t.phase ≠ .idle) : t.res = s.res := by
  rcases State.seqStep_cases e with ⟨_, e⟩ | ⟨_, _, e⟩ | ⟨_, _, e⟩ | ⟨_, _, _, e⟩
  · cases e; rfl
  · cases e; rfl
  · unfold State.decodeStep at e
    split at e
    · exact (exec_results e.symm).res_of_busy busy
    · cases e; exact absurd rfl busy
  · unfold State.phaseStep at e
    split at e
    · exact (exec_results e.symm).res_of_busy busy
    · cases e

/-- Only SEQ writes result registers (10_state R23, 60_exceptions R225). -/
theorem State.act_res_of_ne_seq {m : Move} (hm : m ≠ .seq) (e : s.act m = .next t) : t.res = s.res := by
  rcases State.act_next e with ⟨h, _⟩ | ⟨_, _, rfl⟩ | ⟨_, _, rfl⟩ | ⟨d, _, _, rfl⟩ | ⟨r, _, _, e⟩ | ⟨a, v, _, _, e⟩ | ⟨_, rfl⟩
  · exact absurd h hm
  · rfl
  · rfl
  · rcases s.issue_cases d with ⟨_, e⟩ | ⟨_, e⟩ <;> rw [e] <;> rfl
  · obtain ⟨_, ⟨v, _, rfl⟩ | ⟨_, rfl⟩⟩ := State.hostRead_next e <;> rfl
  · obtain ⟨_, rfl⟩ := State.hostStore_next e; rfl
  · rfl

theorem step_res_of_ne_seq (hm : s.move ≠ .seq) (e : step s = .next t) : t.res = s.res :=
  (State.act_res_of_ne_seq (s := s.dropMove) hm e).trans s.dropMove_res

theorem step_res_of_busy (e : step s = .next t) (busy : t.phase ≠ .idle) : t.res = s.res := by
  by_cases hm : s.move = .seq
  · rw [step_of_move_seq hm] at e
    exact (State.seqStep_res_of_busy e busy).trans s.dropMove_res
  · exact step_res_of_ne_seq hm e

end

/-- Settles O46, from the effect of a step on the results: a completion is the last event of its step. -/
theorem completeRule : Obligations.CompleteRule := by
  refine ⟨fun c s => rfl, fun i s t e => ?_, fun s t e changed => not_not.mp fun hm => changed (step_res_of_ne_seq hm e)⟩
  cases exec_results e with
  | keeps h => exact .inl h
  | @completes u es c res hist silent status =>
    refine .inr ⟨c, es, by rw [State.complete_hist, hist], silent, rfl, ?_⟩
    rw [State.complete_res, res]
    cases i with
    | measure n => simp only [resultsOf]; split <;> rfl
    | _ => rfl

/-- Settles O10: the read by the register's value, the results because a step that changes one ends the command. -/
theorem hostReads : Obligations.HostReads := by
  refine ⟨fun s r hm hf hr => ?_, fun s t e busy => step_res_of_busy e busy⟩
  rw [step_of_hostRead hm hf, State.hostRead_eq hr]
  interval_cases r
  · simp [State.hostRegister, State.bitWord_busy]
  · cases h : s.res.statusWritten <;> simp [State.hostRegister, h, State.raise, Faults.add]
  · cases h : s.res.valueWritten <;> simp [State.hostRegister, h, State.raise, Faults.add]
  · cases h : s.res.rngWritten <;> simp [State.hostRegister, h, State.raise, Faults.add, bitWord_eq]
  · cases h : s.res.rngWritten <;> simp [State.hostRegister, h, State.raise, Faults.add]
  · cases h : s.res.rngWritten <;> simp [State.hostRegister, h, State.raise, Faults.add]

end Sys2Proof.Machine
end

/-! ### The statuses of a command (O47) -/

section
namespace Sys2Proof.Machine

/-- The statuses with which a command other than `MEASURE` ends in mode `m` (60_exceptions R211). -/
def EndsWithStatus (i : Instr) (m : Mode) (c : Code) : Prop :=
  c = 0 ∨ (i.isI2c = true ∧ m = .bounded ∧ (c = 1 ∨ c = 2 ∨ c = 3))

/-- An abort is in progress in `BOUNDED` mode only, and has the error of a failed wait (41_i2c R142). -/
def State.AbortHasError (s : State) : Prop :=
  s.phase.isAbort = true → s.cfg.mode = .bounded ∧ (s.work.err = 2 ∨ s.work.err = 3)

section
variable {i : Instr} {s t : State} {w : Wait} {m : Mode} {h es : List Event} {c : Code}

theorem State.abortHasError_of_not_abort (h : s.phase.isAbort = false) : s.AbortHasError := fun abort => by
  rw [h] at abort; cases abort

theorem State.waitStep_abortHasError {n : Phase} (hn : n.isAbort = false) (hp : s.phase = w.phase) :
    (s.waitStep w n).AbortHasError := by
  rcases State.waitStep_cases (n := n) hp with ⟨_, e⟩ | ⟨_, _, e⟩ | ⟨_, mode, _, e⟩ | ⟨_, _, _, e⟩ <;> rw [e]
  · exact State.abortHasError_of_not_abort (by simpa using hn)
  · exact State.abortHasError_of_not_abort (by rw [State.pread_phase, hp, w.phase_isAbort])
  · unfold State.waitFail
    split
    · next ha => exact fun _ => ⟨(congrArg Config.mode (s.pread_cfg .status)).trans mode, w.err_of_aborts ha⟩
    · exact State.abortHasError_of_not_abort rfl
  · exact State.abortHasError_of_not_abort (by rw [State.polled_phase, hp, w.phase_isAbort])

/-- A step of an I2C command keeps that; a wait's failure is the one way into an abort. -/
theorem State.AbortHasError.exec (a : s.AbortHasError) (hi : i.isI2c = true) (e : exec i s = .next t) : t.AbortHasError := by
  -- within the abort mode and error stay
  have stays : s.phase.isAbort = true → t.work.err = s.work.err → t.AbortHasError := fun hs err _ => by
    rw [(exec_i2cFrame hi e).cfg, err]; exact a hs
  cases exec_i2cStep hi e with
  | decode hp => exact State.abortHasError_of_not_abort rfl
  | wait w n hn hp =>
    obtain ⟨-, -, -, abort, -⟩ := waitNext_spec hn
    exact State.waitStep_abortHasError abort hp
  | access y t h acc => exact State.abortHasError_of_not_abort (acc.phase ▸ (i2cAccess_spec h).2)
  | clear hp => exact State.abortHasError_of_not_abort rfl
  | abStop hp => exact stays (by rw [hp]; rfl) rfl
  | abPoll hp =>
    refine stays (by rw [hp]; rfl) ?_
    rcases s.abortPoll_cases with ⟨_, e⟩ | ⟨_, _, e⟩ | ⟨_, _, e⟩ <;> rw [e] <;> simp
  | abClear hp => exact State.abortHasError_of_not_abort rfl

/-- After the run over a command so far appended `h`: it has not completed, or it has, once and with a status of its own. -/
inductive StatusSoFar (i : Instr) (m : Mode) (s : State) (h : List Event) : Prop
  | busy (silent : Incomplete h) (i2c : i.isI2c = true → s.cfg.mode = m ∧ s.AbortHasError)
  | ended (c : Code) (idle : s.phase = .idle) (status : s.res.status = c) (legal : EndsWithStatus i m c)
      (only : ∀ c', .complete c' ∈ h → c' = c)

theorem Incomplete.append (x : Incomplete h) (y : Incomplete es) : Incomplete (h ++ es) := fun c hc =>
  (List.mem_append.mp hc).elim (x c) (y c)

theorem StatusSoFar.advance (not_measure : ∀ n, i ≠ .measure n) (x : StatusSoFar i m s h) (busy : s.phase ≠ .idle)
    (e : exec i s = .next t) : ∃ es, t.hist = s.hist ++ es ∧ StatusSoFar i m t (h ++ es) := by
  cases x with
  | ended c idle status legal only => exact absurd idle busy
  | busy silent i2c =>
    cases exec_results e with
    | keeps k =>
      obtain ⟨_, es, hist, quiet⟩ := k
      refine ⟨es, hist, .busy (silent.append quiet) fun hi => ?_⟩
      obtain ⟨mode, abort⟩ := i2c hi
      exact ⟨(congrArg Config.mode (exec_i2cFrame hi e).cfg).trans mode, abort.exec hi e⟩
    | @completes u es c res hist quiet status =>
      refine ⟨es ++ [.complete c], by rw [State.complete_hist, hist, List.append_assoc], .ended c rfl rfl ?_ fun c' hc => ?_⟩
      · rcases status with rfl | ⟨hi, status⟩ | ⟨n, hn, _⟩
        · exact .inl rfl
        · obtain ⟨mode, abort⟩ := i2c hi
          subst mode
          rcases status with ⟨mode, rfl⟩ | ⟨hp, rfl⟩
          · exact .inr ⟨hi, mode, .inl rfl⟩
          · obtain ⟨mode, err⟩ := abort (by rw [hp]; rfl)
            exact .inr ⟨hi, mode, .inr err⟩
        · exact absurd hn (not_measure n)
      · rw [← List.append_assoc] at hc
        rcases List.mem_append.mp hc with hc | hc
        · exact absurd hc (silent.append quiet c')
        · simpa using hc

/-- What another agent does is no completion, and leaves SEQ's registers. -/
theorem StatusSoFar.rest (x : StatusSoFar i m s h) (quiet : Incomplete es) (cfg : t.cfg = s.cfg) (phase : t.phase = s.phase)
    (work : t.work = s.work) (res : t.res = s.res) : StatusSoFar i m t (h ++ es) := by
  cases x with
  | busy silent i2c => exact .busy (silent.append quiet) (by simpa only [State.AbortHasError, cfg, phase, work] using i2c)
  | ended c idle status legal only =>
    refine .ended c (phase.trans idle) (by rw [res, status]) legal fun c' hc => ?_
    exact only c' ((List.mem_append.mp hc).resolve_right (quiet c'))

theorem statusSoFar_invariant (not_measure : ∀ n, i ≠ .measure n) : CommandInvariant i (StatusSoFar i m) where
  advance := StatusSoFar.advance not_measure
  tick := fun x _ => x.rest (incomplete_singleton rfl) rfl rfl rfl rfl
  expire := fun x _ => x.rest (incomplete_singleton rfl) rfl rfl rfl rfl
  pass := fun x p => x.rest (fun _ => p.not_mem nofun) p.cfg p.phase p.work p.res

/-- How a run over a command other than `MEASURE` completes. -/
theorem status_of_runOf {k : Nat} (not_measure : ∀ n, i ≠ .measure n) (starts : s.Starts i) (run : RunOf k s t h)
    (hc : .complete c ∈ h) : t.res.status = c ∧ EndsWithStatus i s.cfg.mode c := by
  have start : StatusSoFar i s.cfg.mode s [] :=
    .busy incomplete_nil fun _ => ⟨rfl, State.abortHasError_of_not_abort (by rw [starts.1]; rfl)⟩
  cases (statusSoFar_invariant not_measure).of_runOf starts start run with
  | busy silent _ => exact absurd hc (silent c)
  | ended c' _ status legal only => exact only c hc ▸ ⟨status, legal⟩

end

/-- Settles O47: `MEASURE` by what it left, the other commands by the statuses of their steps. -/
theorem statusesLegal : Obligations.StatusesLegal := by
  intro i k s t h c starts run hc
  have plain : (∀ n, i ≠ .measure n) → i.isI2c = false → t.res.status = c ∧ c = 0 := fun hm hi => by
    obtain ⟨status, ok | ⟨i2c, _⟩⟩ := status_of_runOf hm starts run hc
    · exact ⟨status, ok⟩
    · rw [hi] at i2c; cases i2c
  have i2c : (∀ n, i ≠ .measure n) → t.res.status = c ∧ (c = 0 ∨ (s.cfg.mode = .bounded ∧ (c = 1 ∨ c = 2 ∨ c = 3))) :=
    fun hm => (status_of_runOf hm starts run hc).imp_right fun legal => legal.imp_right And.right
  cases i with
  | initClock => exact plain nofun rfl
  | clockNow => exact plain nofun rfl
  | delayUs n => exact plain nofun rfl
  | delayMs n => exact plain nofun rfl
  | i2cWriteByte addr data => exact i2c nofun
  | i2cWriteBytes addr count buf => exact i2c nofun
  | i2cReadBytes addr reg count buf => exact i2c nofun
  | measure n =>
    obtain ⟨_, val, dur, xs, outcome, res, _⟩ := measured_of_runOf starts run hc
    refine ⟨by rw [res]; rfl, ?_⟩
    cases outcome with
    | noRise hv hd hc events => exact .inr (.inl hc)
    | noFall a ha hv hd hc events => exact .inr (.inr hc)
    | echo a ha hv hd hc events => exact .inl hc

end Sys2Proof.Machine
end

/-! ### Fair runs end the delays (O22) -/

section
namespace Sys2Proof.Machine

/-- The run `f` comes to a state with `P`. -/
def Comes (f : Nat → State) (P : State → Prop) : Prop := ∃ n, P (f n)

/-- SEQ is at phase `p` of command `i` with the working registers `w`, the timers are as `K` says, and `HIST` began with `hs`. -/
structure State.At (i : Instr) (hs : List Event) (K : Clock → MsTimer → Prop) (p : Phase) (w : Work) (s : State) : Prop where
  latched : s.Latched i
  unfaulted : s.faults.clockReinit = false
  since : hs <+: s.hist
  phase : s.phase = p
  work : s.work = w
  timers : K s.clk s.mst

/-- The command is over, with the status `c`, since `HIST` was `hs`. -/
structure State.EndedWith (hs : List Event) (c : Code) (s : State) : Prop where
  phase : s.phase = .idle
  status : s.res.status = c
  completed : ∃ es, s.hist = hs ++ es ∧ .complete c ∈ es

/-- SEQ has returned from a delay with the working registers `w`: the command is over, or goes on at the phase in `RET`. -/
def State.Returned (i : Instr) (hs : List Event) (K : Clock → MsTimer → Prop) (w : Work) (s : State) : Prop :=
  match w.ret with
  | .done => s.EndedWith hs 0
  | .back q => s.At i hs K q w

theorem State.returned_of_done {i : Instr} {hs : List Event} {K : Clock → MsTimer → Prop} {w : Work} (ret : w.ret = .done) :
    State.Returned i hs K w = State.EndedWith hs 0 := by
  funext s; rw [State.Returned, ret]

theorem State.returned_of_back {i : Instr} {hs : List Event} {K : Clock → MsTimer → Prop} {w : Work} {q : Phase}
    (ret : w.ret = .back q) : State.Returned i hs K w = State.At i hs K q w := by
  funext s; rw [State.Returned, ret]

/-- No delay returns into a poll phase, which would clear `POLLS` (41_i2c R140). -/
def Work.ReturnsPlainly (w : Work) : Prop := ∀ q, w.ret = .back q → q.isPoll = false

/-! What is said of the timers, none of which a tick or an expiry ends (60_exceptions R220, R221). -/

/-- Neither a tick nor an expiry ends `K`. -/
structure SteadyTimers (K : Clock → MsTimer → Prop) : Prop where
  tick : ∀ {c x}, K c x → ∀ v, K { c with cnt := v, uif := true } x
  expire : ∀ {c x}, K c x → K c { armed := false, done := true }

/-- Nothing is said of the timers. -/
def AnyTimers (_ : Clock) (_ : MsTimer) : Prop := True

/-- The counter runs. -/
def CounterRuns (c : Clock) (_ : MsTimer) : Prop := c.run = true

/-- The counter runs and has set its flag. -/
def FlagSet (c : Clock) (_ : MsTimer) : Prop := c.run = true ∧ c.uif = true

/-- The timer has been armed, and may have expired since. -/
def TimerStarted (_ : Clock) (x : MsTimer) : Prop := x.armed = true ∨ x.done = true

/-- The timer has expired. -/
def TimerDone (_ : Clock) (x : MsTimer) : Prop := x.done = true

theorem steady_anyTimers : SteadyTimers AnyTimers := ⟨fun _ _ => trivial, fun _ => trivial⟩

theorem steady_counterRuns : SteadyTimers CounterRuns := ⟨fun h _ => h, id⟩

theorem steady_flagSet : SteadyTimers FlagSet := ⟨fun ⟨runs, _⟩ _ => ⟨runs, rfl⟩, id⟩

theorem steady_timerStarted : SteadyTimers TimerStarted := ⟨fun h _ => h, fun _ => .inr rfl⟩

theorem steady_timerDone : SteadyTimers TimerDone := ⟨fun h _ => h, fun _ => rfl⟩

section
variable {i : Instr} {hs : List Event} {K L : Clock → MsTimer → Prop} {p : Phase} {w : Work} {s t u : State} {v : Move}

/-- A move of another agent leaves SEQ where it is, if SEQ is busy (60_exceptions R220, R221, R224). -/
theorem State.At.act_of_ne_seq (a : s.At i hs K p w) (steady : SteadyTimers K) (busy : p ≠ .idle) (hv : v ≠ .seq)
    (e : s.act v = .next t) : t.At i hs K p w := by
  have raised : ∀ x : ModelFault, (s.faults.add x).clockReinit = s.faults.clockReinit → (s.raise x).At i hs K p w :=
    fun x same => { a with unfaulted := same.trans a.unfaulted, since := a.since.trans ⟨_, rfl⟩ }
  rcases State.act_next e with ⟨h, _⟩ | ⟨_, _, rfl⟩ | ⟨_, _, rfl⟩ | ⟨d, _, _, rfl⟩ | ⟨r, _, _, e⟩ | ⟨b, x, _, _, e⟩ | ⟨_, rfl⟩
  · exact absurd h hv
  · exact { a with since := a.since.trans ⟨_, rfl⟩, timers := steady.tick a.timers _ }
  · exact { a with since := a.since.trans ⟨_, rfl⟩, timers := steady.expire a.timers }
  · rcases s.issue_cases d with ⟨idle, _⟩ | ⟨_, e⟩
    · exact absurd (a.phase.symm.trans idle) busy
    · exact e ▸ raised _ rfl
  · obtain ⟨_, ⟨x, _, rfl⟩ | ⟨_, rfl⟩⟩ := State.hostRead_next e
    · exact { a with }
    · exact raised _ rfl
  · obtain ⟨_, rfl⟩ := State.hostStore_next e
    exact { a with }
  · exact a

/-- The environment makes its choices and the next move is taken. -/
theorem State.At.dropMove_under (a : s.At i hs K p w) (x : Env) : (s.under x).dropMove.At i hs K p w := by
  obtain ⟨latched, unfaulted, since, phase, work, timers⟩ := a
  constructor <;> simpa [State.under, State.Latched]

/-- SEQ's turn is a step of the command. -/
theorem State.At.seqStep_eq (a : s.At i hs K p w) (busy : p ≠ .idle) : s.seqStep = exec i s :=
  a.latched.seqStep_eq a.unfaulted (a.phase ▸ busy)

/-- An inner step of SEQ, which appends `es`. -/
theorem State.At.moved {q : Phase} {x : Work} {es : List Event} (a : s.At i hs K p w) (hist : t.hist = s.hist ++ es)
    (cmd : t.cmd = s.cmd) (faults : t.faults = s.faults) (phase : t.phase = q) (work : t.work = x) (timers : L t.clk t.mst) :
    t.At i hs L q x where
  latched := by rw [State.Latched, cmd]; exact a.latched
  unfaulted := by rw [faults]; exact a.unfaulted
  since := a.since.trans ⟨es, hist.symm⟩
  phase := phase
  work := work
  timers := timers

theorem State.endedWith_complete (since : hs <+: s.hist) (c : Code) : (s.complete c).EndedWith hs c := by
  obtain ⟨es, hist⟩ := since
  exact ⟨rfl, rfl, es ++ [.complete c], by rw [State.complete_hist, ← hist, List.append_assoc], by simp⟩

/-- "return" of a delay (40_clock R123). -/
theorem State.At.delayReturn (a : s.At i hs K p w) (plain : w.ReturnsPlainly) : s.delayReturn.Returned i hs K w := by
  obtain rfl := a.work
  rcases s.delayReturn_cases with ⟨ret, e⟩ | ⟨q, ret, e⟩ <;> rw [e]
  · rw [State.returned_of_done ret]
    exact State.endedWith_complete a.since 0
  · rw [State.returned_of_back ret, State.goto_of_not_poll (plain q ret)]
    exact { a with phase := rfl }

end

section
variable {f : Nat → State} {e : Nat → Env} {i : Instr} {hs : List Event} {K L : Clock → MsTimer → Prop} {p : Phase} {w : Work}
  {P Q : State → Prop}

/-- What holds until `Q` comes, and what fairness then makes `Q` come. -/
theorem Comes.ensures (hold : ∀ n, P (f n) → ¬ Q (f n) → P (f (n + 1)) ∨ Q (f (n + 1)))
    (fair : ∀ n, P (f n) → ¬ Q (f n) → ∃ m, n ≤ m ∧ (P (f m) → Q (f (m + 1)))) (c : Comes f P) : Comes f Q := by
  by_contra never
  have not_Q : ∀ m, ¬ Q (f m) := fun m h => never ⟨m, h⟩
  obtain ⟨n, hn⟩ := c
  obtain ⟨m, le, last⟩ := fair n hn (not_Q n)
  have holds : P (f m) := Nat.le_induction hn (fun k _ hk => (hold k hk (not_Q k)).resolve_right (not_Q _)) m le
  exact not_Q _ (last holds)

theorem Comes.or (c : Comes f fun s => P s ∨ Q s) : Comes f P ∨ Comes f Q := exists_or.mp c

/-- A run in which the timers are fair and SEQ gets turns for ever (60_exceptions R222, log 18). -/
structure FairRun (f : Nat → State) (e : Nat → Env) : Prop where
  run : IsRun f e
  fair : Fair f e
  turns : SeqGetsTurns f e

/-- A step of a run that is not SEQ's turn. -/
theorem IsRun.rest {n : Nat} (run : IsRun f e) (a : (f n).At i hs K p w) (steady : SteadyTimers K) (busy : p ≠ .idle)
    (hm : ((f n).under (e n)).move ≠ .seq) : (f (n + 1)).At i hs K p w :=
  (a.dropMove_under (e n)).act_of_ne_seq steady busy hm (run n)

/-- A step of a run that is SEQ's turn. -/
theorem IsRun.turn {n : Nat} (run : IsRun f e) (a : (f n).At i hs K p w) (busy : p ≠ .idle)
    (hm : ((f n).under (e n)).move = .seq) : exec i ((f n).under (e n)).dropMove = .next (f (n + 1)) := by
  rw [← (a.dropMove_under (e n)).seqStep_eq busy, ← step_of_move_seq hm]
  exact run n

/-- SEQ waits at a phase for its turn, which takes it on. -/
theorem Comes.turn (c : Comes f (State.At i hs K p w)) (r : FairRun f e) (steady : SteadyTimers K) (busy : p ≠ .idle)
    (advance : ∀ s t, s.At i hs K p w → exec i s = .next t → Q t) : Comes f Q := by
  have turn : ∀ n, ((f n).under (e n)).move = .seq → (f n).At i hs K p w → Q (f (n + 1)) := fun n hm a =>
    advance _ _ (a.dropMove_under (e n)) (r.run.turn a busy hm)
  refine c.ensures (fun n a _ => ?_) fun n _ _ => ?_
  · by_cases hm : ((f n).under (e n)).move = .seq
    · exact .inr (turn n hm a)
    · exact .inl (r.run.rest a steady busy hm)
  · obtain ⟨m, le, hm⟩ := r.turns n
    exact ⟨m, le, turn m hm⟩

/-- SEQ holds at the phase `p` until the timers are as `L` says, which fairness brings about (00_scope R10). -/
theorem Comes.hold (c : Comes f (State.At i hs K p w)) (r : FairRun f e) (steady : SteadyTimers K) (busy : p ≠ .idle)
    (holds : ∀ s, s.At i hs K p w → ¬ L s.clk s.mst → exec i s = .next s)
    (met : ∀ n, (f n).At i hs K p w → ¬ L (f n).clk (f n).mst → ∃ m, n ≤ m ∧ ((f m).At i hs K p w →
      (f (m + 1)).At i hs L p w)) : Comes f (State.At i hs L p w) := by
  refine c.ensures (fun n a unmet => .inl ?_) fun n a unmet => met n a fun l => unmet { a with timers := l }
  by_cases hm : ((f n).under (e n)).move = .seq
  · have at_turn := a.dropMove_under (e n)
    have turn := r.run.turn a busy hm
    rw [holds _ at_turn (by simpa [State.under] using fun l => unmet { a with timers := l })] at turn
    exact Host.Outcome.next.inj turn ▸ at_turn
  · exact r.run.rest a steady busy hm

/-- At `DU_WAIT` the running counter ticks (40_clock R123, 60_exceptions R220). -/
theorem Comes.tick (c : Comes f (State.At i hs CounterRuns .duWait w)) (r : FairRun f e) (hi : i.hasPhase .duWait = true) :
    Comes f (State.At i hs FlagSet .duWait w) := by
  refine c.hold r steady_counterRuns nofun (fun s a unset => ?_) fun n a _ => ?_
  · have clear : s.clk.uif = false := Bool.eq_false_iff.mpr fun set => unset ⟨a.timers, set⟩
    rw [exec_of_duWait hi a.phase, State.duWait_of_clear clear]
  · obtain ⟨m, le, hm⟩ := r.fair.1 n a.timers
    refine ⟨m, le, fun a => ?_⟩
    have next := r.run.rest a steady_counterRuns nofun (by simp [hm])
    have ticked := Host.Outcome.next.inj ((r.run m).symm.trans (step_of_tick hm a.timers))
    exact { next with timers := ⟨next.timers, by rw [ticked]; rfl⟩ }

/-- At `DM_WAIT` the armed timer expires (40_clock R125, 60_exceptions R221). -/
theorem Comes.expiry (c : Comes f (State.At i hs TimerStarted .dmWait w)) (r : FairRun f e)
    (hi : i.hasPhase .dmWait = true) : Comes f (State.At i hs TimerDone .dmWait w) := by
  refine c.hold r steady_timerStarted nofun (fun s a undone => ?_) fun n a undone => ?_
  · rw [exec_of_dmWait hi a.phase, State.dmWait_of_not_done (Bool.eq_false_iff.mpr undone)]
  · obtain ⟨m, le, hm⟩ := r.fair.2 n (a.timers.resolve_right undone)
    refine ⟨m, le, fun a => ?_⟩
    have next := r.run.rest a steady_timerStarted nofun (by simp [hm])
    refine { next with timers := ?_ }
    cases armed : (f m).mst.armed with
    | true =>
      have expired := Host.Outcome.next.inj ((r.run m).symm.trans (step_of_expiry hm armed))
      rw [expired]; rfl
    | false =>
      have passed := Host.Outcome.next.inj ((r.run m).symm.trans (step_of_expiry_disarmed hm armed))
      rw [passed, State.dropMove_mst]
      exact a.timers.resolve_left (by simp [armed])

/-! A delay returns (40_clock R123, R125). -/

/-- The phases of `DELAY_US` are points of the command. -/
structure DelaysUs (i : Instr) : Prop where
  entry : i.hasPhase .duEntry = true := by rfl
  wait : i.hasPhase .duWait = true := by rfl
  clear : i.hasPhase .duClear = true := by rfl

/-- The phases of `DELAY_MS` are points of the command. -/
structure DelaysMs (i : Instr) : Prop where
  arm : i.hasPhase .dmArm = true := by rfl
  wait : i.hasPhase .dmWait = true := by rfl

/-- Each wait of `DELAY_US` that is over leaves one fewer, and the last returns. -/
theorem Comes.duWait_returns (r : FairRun f e) (hi : DelaysUs i) (w : Work) (hw : w.drem ≠ 0) (plain : w.ReturnsPlainly)
    (c : Comes f (State.At i hs CounterRuns .duWait w)) :
    Comes f (State.Returned i hs CounterRuns { w with drem := 0 }) := by
  have cleared : Comes f (State.At i hs CounterRuns .duClear w) := by
    refine (c.tick r hi.wait).turn r steady_flagSet nofun fun s t a e => ?_
    obtain ⟨runs, set⟩ := a.timers
    rw [exec_of_duWait hi.wait a.phase, State.duWait_of_set set] at e
    cases e
    exact a.moved rfl rfl rfl rfl a.work runs
  have clears : Comes f fun t => t.Returned i hs CounterRuns { w with drem := 0 } ∨
      (w.drem - 1 ≠ 0 ∧ t.At i hs CounterRuns .duWait { w with drem := w.drem - 1 }) := by
    refine cleared.turn r steady_counterRuns nofun fun s t a e => ?_
    obtain rfl := a.work
    rw [exec_of_duClear hi.clear a.phase] at e
    cases e
    rcases s.duClear_cases with ⟨last, e⟩ | ⟨more, e⟩ <;> rw [e]
    · have counted : State.At i hs CounterRuns .duClear { s.work with drem := 0 }
          { s.uifClear with work.drem := s.work.drem - 1 } :=
        a.moved rfl rfl rfl a.phase (by rw [last]; rfl) a.timers
      exact .inl (counted.delayReturn plain)
    · exact .inr ⟨more, a.moved rfl rfl rfl rfl rfl a.timers⟩
  rcases clears.or with returned | ⟨n, more, again⟩
  · exact returned
  · exact Comes.duWait_returns r hi { w with drem := w.drem - 1 } more plain ⟨n, again⟩
termination_by w.drem.toNat
decreasing_by
  have counted := toNat_sub_one hw
  show (w.drem - 1).toNat < w.drem.toNat
  omega

/-- `DELAY_US` returns while the counter runs. -/
theorem Comes.delayUs_returns (c : Comes f (State.At i hs CounterRuns .duEntry w)) (r : FairRun f e) (hi : DelaysUs i)
    (plain : w.ReturnsPlainly) : Comes f (State.Returned i hs CounterRuns { w with drem := 0 }) := by
  have enters : Comes f fun t => t.Returned i hs CounterRuns { w with drem := 0 } ∨
      (w.drem ≠ 0 ∧ t.At i hs CounterRuns .duWait w) := by
    refine c.turn r steady_counterRuns nofun fun s t a e => ?_
    obtain rfl := a.work
    rw [exec_of_duEntry hi.entry a.phase] at e
    cases e
    rcases s.duEntry_cases with ⟨zero, e⟩ | ⟨more, e⟩ <;> rw [e]
    · exact .inl (by rw [← zero]; exact a.delayReturn plain)
    · exact .inr ⟨more, a.moved rfl rfl rfl rfl rfl a.timers⟩
  rcases enters.or with returned | ⟨n, more, waits⟩
  · exact returned
  · exact Comes.duWait_returns r hi w more plain ⟨n, waits⟩

/-- `DELAY_MS` returns, whatever the timer was: each expiry leaves one millisecond fewer. -/
theorem Comes.delayMs_returns (r : FairRun f e) (hi : DelaysMs i) (w : Work) (plain : w.ReturnsPlainly)
    (c : Comes f (State.At i hs AnyTimers .dmArm w)) : Comes f (State.Returned i hs AnyTimers { w with mrem := 0 }) := by
  have arms : Comes f fun t => t.Returned i hs AnyTimers { w with mrem := 0 } ∨
      (w.mrem ≠ 0 ∧ t.At i hs TimerStarted .dmWait w) := by
    refine c.turn r steady_anyTimers nofun fun s t a e => ?_
    obtain rfl := a.work
    rw [exec_of_dmArm hi.arm a.phase] at e
    cases e
    rcases s.dmArm_cases with ⟨zero, e⟩ | ⟨more, e⟩ <;> rw [e]
    · exact .inl (by rw [← zero]; exact a.delayReturn plain)
    · exact .inr ⟨more, a.moved rfl rfl rfl rfl rfl (.inl rfl)⟩
  rcases arms.or with returned | ⟨n, more, waits⟩
  · exact returned
  · have again : Comes f (State.At i hs AnyTimers .dmArm { w with mrem := w.mrem - 1 }) := by
      refine (Comes.expiry ⟨n, waits⟩ r hi.wait).turn r steady_timerDone nofun fun s t a e => ?_
      obtain rfl := a.work
      rw [exec_of_dmWait hi.wait a.phase, State.dmWait_of_done a.timers] at e
      cases e
      exact a.moved rfl rfl rfl rfl rfl trivial
    exact Comes.delayMs_returns r hi { w with mrem := w.mrem - 1 } plain again
termination_by w.mrem.toNat
decreasing_by
  have counted := toNat_sub_one more
  show (w.mrem - 1).toNat < w.mrem.toNat
  omega

end

/-! `MEASURE` (42_ranger R181 to R183). -/

/-- READ_ECHO is over, with one of the statuses of ranging, and the settle begins (42_ranger R181, R183). -/
def State.Settles (T : Word) (hs : List Event) (s : State) : Prop :=
  ∃ w : Work, (w.ekind = 0 ∨ w.ekind = 4 ∨ w.ekind = 5) ∧ w.ret = .back .rgSettle ∧ s.At (.measure T) hs AnyTimers .dmArm w

section
variable {f : Nat → State} {e : Nat → Env} {T : Word} {hs : List Event} {K : Clock → MsTimer → Prop} {p q : Phase} {w : Work}
  {P Q : State → Prop}

theorem returnsPlainly_of_back (ret : w.ret = .back q) (poll : q.isPoll = false) : w.ReturnsPlainly := by
  intro x hx
  rw [ret] at hx
  cases hx
  exact poll

/-- A delay of `MEASURE` in microseconds returns to the phase in `RET`. -/
theorem Comes.back (c : Comes f (State.At (.measure T) hs CounterRuns .duEntry w)) (r : FairRun f e) (ret : w.ret = .back q)
    (poll : q.isPoll = false) : Comes f (State.At (.measure T) hs CounterRuns q { w with drem := 0 }) := by
  rw [← State.returned_of_back (w := { w with drem := 0 }) ret]
  exact c.delayUs_returns r {} (returnsPlainly_of_back ret poll)

/-- A loop of READ_ECHO ends: a sample leads out of it, or to the next one with a higher count, within the timeout
(42_ranger R183). -/
theorem Comes.echoLoop (r : FairRun f e) (w : Work) (hw : w.ecnt.toNat ≤ T.toNat)
    (c : Comes f (State.At (.measure T) hs CounterRuns q w)) (busy : q ≠ .idle) (poll : q.isPoll = false)
    (sample : ∀ s t, s.At (.measure T) hs CounterRuns q s.work → s.work.ecnt.toNat ≤ T.toNat → exec (.measure T) s = .next t →
      Q t ∨ (s.work.ecnt.toNat < T.toNat ∧
        t.At (.measure T) hs CounterRuns .duEntry { s.work with ecnt := s.work.ecnt + 1, drem := 1, ret := .back q })) :
    Comes f Q := by
  have sampled : Comes f fun t => Q t ∨ (w.ecnt.toNat < T.toNat ∧
      t.At (.measure T) hs CounterRuns .duEntry { w with ecnt := w.ecnt + 1, drem := 1, ret := .back q }) := by
    refine c.turn r steady_counterRuns busy fun s t a e => ?_
    obtain rfl := a.work
    exact sample s t a hw e
  rcases sampled.or with done | ⟨n, below, delays⟩
  · exact done
  · have count := toNat_ecnt_succ hw
    have again := Comes.back ⟨n, delays⟩ r rfl poll
    exact Comes.echoLoop r _ (by show (w.ecnt + 1).toNat ≤ T.toNat; omega) again busy poll sample
termination_by T.toNat - w.ecnt.toNat
decreasing_by
  show T.toNat - (w.ecnt + 1).toNat < T.toNat - w.ecnt.toNat
  omega

/-- A sample at `RG_B_SAMPLE` ends READ_ECHO, or counts on (42_ranger R183). -/
theorem sampleB_leads {s : State} (a : s.At (.measure T) hs CounterRuns .rgBSample s.work) (hw : s.work.ecnt.toNat ≤ T.toNat) :
    (s.sampleB T).Settles T hs ∨ (s.work.ecnt.toNat < T.toNat ∧ (s.sampleB T).At (.measure T) hs CounterRuns .duEntry
      { s.work with ecnt := s.work.ecnt + 1, drem := 1, ret := .back .rgBSample }) := by
  cases level : s.draw.bit with
  | false =>
    rw [State.sampleB_of_low level]
    exact .inl ⟨_, .inl rfl, rfl, a.moved rfl (by simp) (by simp) rfl rfl trivial⟩
  | true =>
    rw [State.sampleB_of_high level, toNat_ecnt_succ hw]
    split
    · exact .inl ⟨_, .inr (.inr rfl), rfl, a.moved rfl (by simp) (by simp) rfl rfl trivial⟩
    · exact .inr ⟨by omega, a.moved rfl (by simp) (by simp) rfl (by simp) (by simpa using a.timers)⟩

/-- A sample at `RG_A_SAMPLE` is the rise, or ends READ_ECHO, or counts on (42_ranger R183). -/
theorem sampleA_leads {s : State} (a : s.At (.measure T) hs CounterRuns .rgASample s.work) (hw : s.work.ecnt.toNat ≤ T.toNat) :
    ((s.sampleA T).Settles T hs ∨ (s.sampleA T).At (.measure T) hs CounterRuns .rgBSample { s.work with ecnt := 0 }) ∨
      (s.work.ecnt.toNat < T.toNat ∧ (s.sampleA T).At (.measure T) hs CounterRuns .duEntry
        { s.work with ecnt := s.work.ecnt + 1, drem := 1, ret := .back .rgASample }) := by
  cases level : s.draw.bit with
  | true =>
    rw [State.sampleA_of_high level]
    exact .inl (.inr (a.moved rfl (by simp) (by simp) rfl (by simp) (by simpa using a.timers)))
  | false =>
    rw [State.sampleA_of_low level, toNat_ecnt_succ hw]
    split
    · exact .inl (.inl ⟨_, .inr (.inl rfl), rfl, a.moved rfl (by simp) (by simp) rfl rfl trivial⟩)
    · exact .inr ⟨by omega, a.moved rfl (by simp) (by simp) rfl (by simp) (by simpa using a.timers)⟩

/-- READ_ECHO ends. -/
theorem Comes.settles (c : Comes f (State.At (.measure T) hs CounterRuns .rgASample w)) (r : FairRun f e)
    (hw : w.ecnt.toNat ≤ T.toNat) : Comes f (State.Settles T hs) := by
  have rises : Comes f fun t => t.Settles T hs ∨ ∃ w : Work, w.ecnt = 0 ∧ t.At (.measure T) hs CounterRuns .rgBSample w := by
    refine Comes.echoLoop r w hw c nofun rfl fun s t a hw e => ?_
    rw [exec_of_rgASample a.phase] at e
    cases e
    exact (sampleA_leads a hw).imp_left (Or.imp_right fun rise => ⟨_, rfl, rise⟩)
  rcases rises.or with settles | ⟨n, w, zero, rise⟩
  · exact settles
  · refine Comes.echoLoop r w (by rw [zero]; exact Nat.zero_le _) ⟨n, rise⟩ nofun rfl fun s t a hw e => ?_
    rw [exec_of_rgBSample a.phase] at e
    cases e
    exact sampleB_leads a hw

/-- A level of the trigger pulse is driven and held (42_ranger R182). -/
theorem Comes.pulse {l : Bool} (c : Comes f (State.At (.measure T) hs CounterRuns p w)) (r : FairRun f e) (busy : p ≠ .idle)
    (arm : ∀ {s : State}, s.phase = p → exec (.measure T) s = .next (s.trigHold l q)) (poll : q.isPoll = false) :
    Comes f (State.At (.measure T) hs CounterRuns q { w with drem := 0, ret := .back q }) := by
  have driven : Comes f (State.At (.measure T) hs CounterRuns .duEntry
      { w with drem := Config.trigUs, ret := .back q }) := by
    refine c.turn r steady_counterRuns busy fun s t a e => ?_
    obtain rfl := a.work
    rw [arm a.phase] at e
    cases e
    exact a.moved (es := [.trigWr l]) rfl rfl rfl rfl rfl a.timers
  exact driven.back r rfl poll

/-- The trigger pulse goes out, and READ_ECHO begins (42_ranger R182). -/
theorem Comes.echo (c : Comes f (State.At (.measure T) hs CounterRuns .decode w)) (r : FairRun f e) :
    Comes f fun t => ∃ w : Work, w.ecnt = 0 ∧ t.At (.measure T) hs CounterRuns .rgASample w := by
  have begun : Comes f (State.At (.measure T) hs CounterRuns .rgTrig0 w) := by
    refine c.turn r steady_counterRuns nofun fun s t a e => ?_
    rw [exec_of_decode _ a.phase] at e
    cases e
    exact a.moved (es := []) (by simp [State.begin]) rfl rfl rfl a.work a.timers
  have raised := (begun.pulse r nofun exec_of_rgTrig0 rfl).pulse r nofun exec_of_rgTrig1 rfl
  refine raised.turn r steady_counterRuns nofun fun s t a e => ?_
  rw [exec_of_rgTrig2 a.phase] at e
  cases e
  exact ⟨{ s.work with ecnt := 0 }, rfl, a.moved (es := [.trigWr false]) rfl rfl rfl rfl rfl a.timers⟩

/-- The settle ends, and with it the command, the measurement registers written (42_ranger R181). -/
theorem Comes.ranged (c : Comes f (State.Settles T hs)) (r : FairRun f e) : Comes f fun s =>
    ∃ x : Code, (x = 0 ∨ x = 4 ∨ x = 5) ∧ s.EndedWith hs x ∧ s.res.rngWritten = true := by
  obtain ⟨n, w, legal, ret, a⟩ := c
  have returned := Comes.delayMs_returns r {} w (returnsPlainly_of_back ret rfl) ⟨n, a⟩
  rw [State.returned_of_back (w := { w with mrem := 0 }) ret] at returned
  refine returned.turn r steady_anyTimers nofun fun s t a e => ?_
  rw [exec_of_rgSettle a.phase] at e
  cases e
  have ekind : s.work.ekind = w.ekind := by rw [a.work]
  exact ⟨s.work.ekind, ekind ▸ legal, State.endedWith_complete (s := { s with
    res.rngValid := s.work.val, res.rngDuration := s.work.dur, res.rngDistance := distance s.work.dur, res.rngWritten := true })
    a.since _, rfl⟩

end

section
variable {f : Nat → State} {e : Nat → Env} {i : Instr} {hs : List Event} {K : Clock → MsTimer → Prop} {w : Work} {n : Word}

theorem returnsPlainly_of_done (ret : w.ret = .done) : w.ReturnsPlainly := fun q h => by rw [ret] at h; cases h

/-- `DELAY_US` ends while the counter runs. -/
theorem Comes.delayUs_ends (c : Comes f (State.At (.delayUs n) hs CounterRuns .decode w)) (r : FairRun f e) :
    Comes f (State.EndedWith hs 0) := by
  have entered : Comes f (State.At (.delayUs n) hs CounterRuns .duEntry { w with drem := n, ret := .done }) := by
    refine c.turn r steady_counterRuns nofun fun s t a e => ?_
    obtain rfl := a.work
    rw [exec_of_decode _ a.phase] at e
    cases e
    exact a.moved (es := []) (by simp [State.begin]) rfl rfl rfl rfl a.timers
  rw [← State.returned_of_done (w := { w with drem := 0, ret := .done }) rfl]
  exact entered.delayUs_returns r {} (returnsPlainly_of_done rfl)

/-- `DELAY_MS` ends. -/
theorem Comes.delayMs_ends (c : Comes f (State.At (.delayMs n) hs AnyTimers .decode w)) (r : FairRun f e) :
    Comes f (State.EndedWith hs 0) := by
  have entered : Comes f (State.At (.delayMs n) hs AnyTimers .dmArm { w with mrem := n, ret := .done }) := by
    refine c.turn r steady_anyTimers nofun fun s t a e => ?_
    obtain rfl := a.work
    rw [exec_of_decode _ a.phase] at e
    cases e
    exact a.moved (es := []) (by simp [State.begin]) rfl rfl rfl rfl trivial
  rw [← State.returned_of_done (w := { w with mrem := 0, ret := .done }) rfl]
  exact Comes.delayMs_returns r {} _ (returnsPlainly_of_done rfl) entered

theorem State.EndedWith.mem_drop {s : State} {c : Code} (x : s.EndedWith hs c) : .complete c ∈ s.hist.drop hs.length := by
  obtain ⟨es, hist, mem⟩ := x.completed
  rwa [hist, List.drop_left]

/-- Settles O22: at each phase SEQ's next turn takes it on, a hold ends by the timers' fairness, and the three loops count down to
their end: the waits of a delay, the milliseconds, and the samples up to the timeout. -/
theorem delaysEnd : Obligations.DelaysEnd := by
  intro f e run fair turns unfaulted
  have r : FairRun f e := ⟨run, fair, turns⟩
  have start : ∀ {i : Instr} {K : Clock → MsTimer → Prop}, (f 0).Starts i → K (f 0).clk (f 0).mst →
      Comes f (State.At i (f 0).hist K .decode (f 0).work) := fun starts timers =>
    ⟨0, starts.2, unfaulted, List.prefix_rfl, starts.1, rfl, timers⟩
  refine ⟨fun n h => ?_, fun T starts runs => ?_⟩
  · have ended : Comes f (State.EndedWith (f 0).hist 0) := by
      rcases h with ⟨starts, runs⟩ | starts
      · exact (start (K := CounterRuns) starts runs).delayUs_ends r
      · exact (start (K := AnyTimers) starts trivial).delayMs_ends r
    obtain ⟨m, x⟩ := ended
    exact ⟨m, x.phase, x.status, x.mem_drop⟩
  · obtain ⟨k, w, zero, samples⟩ := (start (K := CounterRuns) starts runs).echo r
    have settles := Comes.settles ⟨k, samples⟩ r (by rw [zero]; exact Nat.zero_le _)
    obtain ⟨m, c, legal, x, written⟩ := settles.ranged r
    exact ⟨m, c, x.phase, x.status, legal, written, x.mem_drop⟩

end

end Sys2Proof.Machine
end

/-! ### The I2C commands use neither timer nor pin (O55) -/

section
namespace Sys2Proof.Machine

/-- `s` with other contents of the clock, the millisecond timer and `TRIG`. -/
def State.withTimers (c : Clock) (m : MsTimer) (g : Bool) (s : State) : State := { s with clk := c, mst := m, trig := g }

/-! Each operation of the I2C commands acts the same whatever the timers and the pin hold. -/

section
variable (c : Clock) (m : MsTimer) (g : Bool) (s : State)

@[simp] theorem State.withTimers_phase : (s.withTimers c m g).phase = s.phase := rfl
@[simp] theorem State.withTimers_cfg : (s.withTimers c m g).cfg = s.cfg := rfl
@[simp] theorem State.withTimers_work : (s.withTimers c m g).work = s.work := rfl
@[simp] theorem State.withTimers_preadValue : (s.withTimers c m g).preadValue = s.preadValue := rfl
@[simp] theorem State.withTimers_admitted (a : Word) : (s.withTimers c m g).admitted a = s.admitted a := rfl

@[simp] theorem State.dropDraw_withTimers : (s.withTimers c m g).dropDraw = s.dropDraw.withTimers c m g := by
  cases h : s.env.draws <;> simp [State.dropDraw, State.withTimers, h]

@[simp] theorem State.pread_withTimers (r : PReg) : (s.withTimers c m g).pread r = (s.pread r).withTimers c m g := by
  simp only [State.pread, State.dropDraw_withTimers]; rfl

@[simp] theorem State.pwrite_withTimers (r : PReg) (v : Word) :
    (s.withTimers c m g).pwrite r v = (s.pwrite r v).withTimers c m g := rfl

@[simp] theorem State.setStop_withTimers : (s.withTimers c m g).setStop = s.setStop.withTimers c m g := rfl

@[simp] theorem State.goto_withTimers (p : Phase) : (s.withTimers c m g).goto p = (s.goto p).withTimers c m g := by
  unfold State.goto State.withTimers; split <;> rfl

@[simp] theorem State.waitFail_withTimers (w : Wait) :
    (s.withTimers c m g).waitFail w = (s.waitFail w).withTimers c m g := by
  unfold State.waitFail; split <;> rfl

@[simp] theorem State.waitStep_withTimers (w : Wait) (n : Phase) :
    (s.withTimers c m g).waitStep w n = (s.waitStep w n).withTimers c m g := by
  unfold State.waitStep
  rw [State.withTimers_preadValue, State.withTimers_cfg, State.withTimers_work, State.pread_withTimers]
  split
  · exact State.goto_withTimers ..
  · split
    · exact State.goto_withTimers ..
    · split
      · exact s.polled.waitFail_withTimers ..
      · exact s.polled.goto_withTimers ..

@[simp] theorem State.abortStop_withTimers : (s.withTimers c m g).abortStop = s.abortStop.withTimers c m g := rfl

@[simp] theorem State.abortPoll_withTimers : (s.withTimers c m g).abortPoll = s.abortPoll.withTimers c m g := by
  unfold State.abortPoll
  rw [State.withTimers_preadValue, State.withTimers_cfg, State.withTimers_work, State.pread_withTimers]
  split
  · rfl
  · split <;> rfl

@[simp] theorem State.abortClear_withTimers : (s.withTimers c m g).abortClear = s.abortClear.withTimers c m g := rfl

@[simp] theorem State.stopfClear_withTimers : (s.withTimers c m g).stopfClear = s.stopfClear.withTimers c m g := rfl

@[simp] theorem State.startWrite_withTimers (addr : Addr7) (count : Byte) :
    (s.withTimers c m g).startWrite addr count = (s.startWrite addr count).withTimers c m g :=
  State.goto_withTimers c m g { s.pwrite .ctrl _ with work.idx := 0 } _

@[simp] theorem State.txWrite_withTimers (count : Byte) :
    (s.withTimers c m g).txWrite count = (s.txWrite count).withTimers c m g :=
  State.goto_withTimers c m g { s.pwrite .txdr _ with work.idx := s.work.idx + 1 } _

@[simp] theorem State.restart_withTimers (addr : Addr7) (count : Byte) :
    (s.withTimers c m g).restart addr count = (s.restart addr count).withTimers c m g :=
  State.goto_withTimers c m g { s.pwrite .ctrl _ with work.idx := 0 } _

@[simp] theorem State.rxRead_withTimers : (s.withTimers c m g).rxRead = s.rxRead.withTimers c m g := by
  simp only [State.rxRead, State.pread_withTimers]; rfl

/-- Whether the byte is admitted is a matter of the parameters and of `IDX`. -/
@[simp] theorem State.txFetch_withTimers (buf : Word) :
    (s.withTimers c m g).txFetch buf = mapNext (State.withTimers c m g) (s.txFetch buf) := by
  unfold State.txFetch
  rw [State.withTimers_work, State.withTimers_admitted]
  split <;> rfl

@[simp] theorem State.rxStore_withTimers (count : Byte) (buf : Word) :
    (s.withTimers c m g).rxStore count buf = mapNext (State.withTimers c m g) (s.rxStore count buf) := by
  unfold State.rxStore
  rw [State.withTimers_work, State.withTimers_admitted]
  split
  · exact congrArg Host.Outcome.next
      (State.goto_withTimers c m g { s.memWrite _ _ with work.idx := s.work.idx + 1 } _)
  · rfl

@[simp] theorem mapNext_next (f : State → State) (t : State) : mapNext f (.next t) = .next (f t) := rfl
@[simp] theorem mapNext_fault (f : State → State) (e : Fault) : mapNext f (.fault e) = .fault e := rfl

/-! One SEQ step of each I2C command: every arm is one of these operations. -/

theorem execI2cWriteByte_withTimers (addr : Addr7) (data : Byte) :
    execI2cWriteByte addr data (s.withTimers c m g) = mapNext (State.withTimers c m g) (execI2cWriteByte addr data s) := by
  unfold execI2cWriteByte
  rw [State.withTimers_phase]
  split <;> simp

theorem execI2cWriteBytes_withTimers (addr : Addr7) (count : Byte) (buf : Word) :
    execI2cWriteBytes addr count buf (s.withTimers c m g) =
      mapNext (State.withTimers c m g) (execI2cWriteBytes addr count buf s) := by
  unfold execI2cWriteBytes
  rw [State.withTimers_phase]
  split <;> simp

theorem execI2cReadBytes_withTimers (addr : Addr7) (reg count : Byte) (buf : Word) :
    execI2cReadBytes addr reg count buf (s.withTimers c m g) =
      mapNext (State.withTimers c m g) (execI2cReadBytes addr reg count buf s) := by
  unfold execI2cReadBytes
  rw [State.withTimers_phase]
  split <;> simp

end

/-- Settles O55: every operation an I2C command is made of passes the timers and the pin on unread. -/
theorem i2cIgnoresTimers : Obligations.I2cIgnoresTimers := by
  intro i s c m g hi
  cases i with
  | i2cWriteByte addr data => exact execI2cWriteByte_withTimers c m g s addr data
  | i2cWriteBytes addr count buf => exact execI2cWriteBytes_withTimers c m g s addr count buf
  | i2cReadBytes addr reg count buf => exact execI2cReadBytes_withTimers c m g s addr reg count buf
  | _ => cases hi

end Sys2Proof.Machine
end
